-- ==== Sys2Proof/Word.lean ====
section
/-! DEFINITION. The byte, the only word that crosses the block's interface (00_scope.md R10, 20_memory.md R72),
and texts (sequences of character codes). Everything the source computes is a natural number of bounded range
(41_codec_decoders.md R184), so no wider machine word exists. -/

namespace Sys2Proof

/-- A `Byte` (R10): bit 0 is the least significant bit. -/
abbrev Byte := BitVec 8

/-- A sequence of bytes in wire order (R11): the head is sent or received first. Texts (passwords) are sequences of
character codes (R22). -/
abbrev Bytes := List Byte

/-- The byte with the value `n mod 256`. -/
abbrev byteOf (n : Nat) : Byte := BitVec.ofNat 8 n

end Sys2Proof
end

