-- ==== Sys2Proof/Config.lean ====
section
/-! DEFINITION. The block's interface as data (10_state.md R21, R40 to R45; 44_session.md R260) and its parameters
(00_scope.md R8; 92_eei_decisions.md section 3): what an implementation fixes, and what the outside world supplies.
The parameters the spec calls OPEN are fields of `Config`, which `Machine.State` carries and no step changes (log entry
1); the reference values are the spec's own placeholders `REF_OPC` and `REFCFG` (92_eei_decisions.md section 1). What the
device and the host do is an input (R67): a list in `Machine.State`, continued by `Config.freeInput`, which has no body. -/

namespace Sys2Proof

/-! ## Parameters fixed by the source (R8, R9) -/

/-- `N_RELAYS` (R8). -/
def Config.nRelays : Nat := 8
/-- `PASSWORD_LEN` (R8): digits of a password. -/
def Config.passwordLen : Nat := 6
/-- `PASSWORD_MAX` (R8): the largest password value. -/
def Config.passwordMax : Nat := 999999
/-- `PASSWORD_WIRE_BYTES` (R8). -/
def Config.passwordWireBytes : Nat := 3
/-- `POLL_MS` (R8, R204): the length of one sleep branch of the read state machine. -/
def Config.pollMs : Nat := 10
/-- `SYNC_MAX_ATTEMPTS` (R8, R241). -/
def Config.syncMaxAttempts : Nat := 10
/-- `SYNC_SLEEP_MS` (R8, R240). -/
def Config.syncSleepMs : Nat := 10
/-- `MODE_MAX_ATTEMPTS` (R8, R270). -/
def Config.modeMaxAttempts : Nat := 3
/-- `BAUD` (R8): the host opens the line with it; no rule of the block uses it. -/
def Config.baud : Nat := 9600
/-- `DATA_BITS` (R8). -/
def Config.dataBits : Nat := 8
/-- `PARITY` (R8): none. -/
def Config.parity : Option Nat := none
/-- `STOP_BITS` (R8). -/
def Config.stopBits : Nat := 1

/-! ## Requests, host moves, public operations -/

/-- OperatingMode (R15): the two modes a host may ask for. What they do to a relay is not in the source (N18). -/
inductive Mode where
  | latching
  | momentary
  deriving DecidableEq, Repr, Inhabited

/-- `Request` (R21): what a host may present at the command port. Fourteen kinds name a wire command; `synchronize`
runs the supervisor alone (R242). -/
inductive Request where
  | getBoardId
  | getPassword
  | verifyPassword (pw : Bytes)
  | setPassword (pw : Bytes)
  | getMode
  | setMode (mode : Mode)
  | getStatus
  | getFirmwareVersion
  | getRelayStates
  | setRelay (n : Int) (state : Bool)
  | setAllRelays (state : Bool)
  | getVoltage
  | getTemperatureRaw
  | getTemperatureAscii
  | synchronize
  deriving DecidableEq, Repr, Inhabited

/-- The Session's public operations (R260). -/
inductive Call where
  | openSession (portId : Bytes) (pw : Bytes)
  | closeSession
  | changePassword (pw : Bytes)
  | getPassword
  | getBoardModel
  | getBoardVersion
  | getFirmwareVersion
  | getChannelCount
  | getRelayStates
  | getRelayState (n : Int)
  | setRelay (n : Int) (state : Bool)
  | setAllRelays (state : Bool)
  | getOperatingMode
  | setOperatingMode (mode : Mode)
  | getVoltage
  | getTemperature
  deriving DecidableEq, Repr, Inhabited

/-- What the world outside the block does at its ports before one step (R40): nothing; present a request (R41); load
the password register (R42); open or close the transport (R44, R65); assert cancel (R45); reset (R50); call a public
operation of the Session (R260); or give the next steps to the `k`-th of the other requesters (R340). -/
inductive HostMove where
  | nothing
  | request (r : Request)
  | loadPassword (pw : Bytes)
  | setTransport (isOpen : Bool)
  | cancel
  | reset
  | call (c : Call)
  | turn (k : Nat)
  deriving DecidableEq, Repr, Inhabited

/-- Everything the outside supplies for one step: the bytes the device has sent since the step before (R67, a draw);
the outcome of a transport write, should the step make one (R64: `none` is success, `some k` a failure after `k` bytes
reached the line); whether a transport open fails (R261); and the host's move. -/
structure Input where
  arr : Bytes
  writeFault : Option Nat
  openFails : Bool
  move : HostMove
  deriving DecidableEq, Repr, Inhabited

/-- A step's input with no arrival, no failure and no move. -/
def Input.quiet : Input := { arr := [], writeFault := none, openFails := false, move := .nothing }

/-- The outside world after the listed inputs of a state are used up: FREE (R67, U5, U6: any value), no body, applied
to the number of inputs sampled so far. -/
opaque Config.freeInput : Nat → Input

/-! ## The OPEN parameters -/

/-- The parameters a model takes as arguments (92_eei_decisions.md section 3). -/
structure Config where
  /-- `OPC` (R98, D1): the opcode bytes of the 31 commands, in the order of R96. -/
  opc : Vector Byte 31
  /-- `RLEN_STATUS` (D35): the reply length of `GET_STATUS`. -/
  rlenStatus : Nat
  /-- `DEC_BOOL` (R171, D5): the bytes that spell false; every other byte spells true. Any total function from bytes
  to booleans has such a list. -/
  verifyFalse : Bytes
  /-- `TIMEOUT_DEFAULT_MS` (D15). -/
  timeoutDefaultMs : Nat
  /-- `TIMEOUT_TEMP_MS` (D15). -/
  timeoutTempMs : Nat
  /-- `RESP_CAP` (D24): `none` is unbounded. -/
  respCap : Option Nat
  /-- `HAS_CANCEL` (D20). -/
  hasCancel : Bool
  /-- The board-identity decoder (R180, D4): true when the model byte comes first. -/
  boardModelFirst : Bool
  /-- `CHANNELS_OF_MODEL` (D30): the model bytes with a channel count of their own. -/
  channels : List (Byte × Nat)
  /-- `CHANNELS_OF_MODEL` (D30) of every other model byte. -/
  channelsElse : Nat
  deriving DecidableEq, Repr

/-- `REF_OPC` (92_eei_decisions.md section 1): a placeholder of the spec's own, in the order of R96. -/
def Config.refOpc : Vector Byte 31 :=
  #v[0x10, 0x11, 0x12, 0x13, 0x14, 0x15, 0x16, 0x17, 0x18, 0x19,
     0x21, 0x22, 0x23, 0x24, 0x25, 0x26, 0x27, 0x28,
     0x31, 0x32, 0x33, 0x34, 0x35, 0x36, 0x37, 0x38,
     0x20, 0x30, 0x1A, 0x1B, 0x1C]

/-- `REFCFG` with `REF_OPC` (92_eei_decisions.md section 1): the configuration of `Machine.State.reset`. No statement
rests on it. -/
def Config.reference : Config :=
  { opc := Config.refOpc
    rlenStatus := 1
    verifyFalse := [0x00]
    timeoutDefaultMs := 50
    timeoutTempMs := 30
    respCap := none
    hasCancel := false
    boardModelFirst := true
    channels := []
    channelsElse := 8 }

end Sys2Proof
end

