-- ==== Sys2Proof/Syntax.lean ====
section
/-! DEFINITION. The instruction set: the 31 wire commands of 30_encoding.md R96, one constructor per row of
spec/opcode_table.json, in the table's order. A command of format F3 (R92) carries its three payload bytes, so a value
of `Instr` is a pair (`cmd`, `payload`) of R20 with a payload of the command's own length. -/

namespace Sys2Proof

/-- The 31 commands (R96). `a`, `b`, `c` are the payload bytes of format F3 (R92): bits 7:0, 15:8 and 23:16 of the
password's value. -/
inductive Instr where
  /-- `GET_BOARD_ID` (R121). -/
  | getBoardId
  /-- `GET_PASSWORD` (R122). -/
  | getPassword
  /-- `VERIFY_PASSWORD` (R123). -/
  | verifyPassword (a b c : Byte)
  /-- `SET_PASSWORD` (R124). -/
  | setPassword (a b c : Byte)
  /-- `GET_MODE` (R125). -/
  | getMode
  /-- `SET_MODE_LATCHING` (R126). -/
  | setModeLatching
  /-- `SET_MODE_MOMENTARY` (R127). -/
  | setModeMomentary
  /-- `GET_STATUS` (R128). -/
  | getStatus
  /-- `GET_FIRMWARE_VERSION` (R129). -/
  | getFirmwareVersion
  /-- `GET_RELAY_STATES` (R130). -/
  | getRelayStates
  /-- `RELAY1_HIGH` (R131). -/
  | relay1High
  /-- `RELAY2_HIGH` (R132). -/
  | relay2High
  /-- `RELAY3_HIGH` (R133). -/
  | relay3High
  /-- `RELAY4_HIGH` (R134). -/
  | relay4High
  /-- `RELAY5_HIGH` (R135). -/
  | relay5High
  /-- `RELAY6_HIGH` (R136). -/
  | relay6High
  /-- `RELAY7_HIGH` (R137). -/
  | relay7High
  /-- `RELAY8_HIGH` (R138). -/
  | relay8High
  /-- `RELAY1_LOW` (R139). -/
  | relay1Low
  /-- `RELAY2_LOW` (R140). -/
  | relay2Low
  /-- `RELAY3_LOW` (R141). -/
  | relay3Low
  /-- `RELAY4_LOW` (R142). -/
  | relay4Low
  /-- `RELAY5_LOW` (R143). -/
  | relay5Low
  /-- `RELAY6_LOW` (R144). -/
  | relay6Low
  /-- `RELAY7_LOW` (R145). -/
  | relay7Low
  /-- `RELAY8_LOW` (R146). -/
  | relay8Low
  /-- `ALL_HIGH` (R147). -/
  | allHigh
  /-- `ALL_LOW` (R148). -/
  | allLow
  /-- `GET_VOLTAGE` (R149). -/
  | getVoltage
  /-- `GET_TEMP_RAW` (R150). -/
  | getTempRaw
  /-- `GET_TEMP_ASCII` (R151). -/
  | getTempAscii
  deriving DecidableEq, Repr, Inhabited

/-- The command's row in the table of R96, counted from 0. -/
def Instr.number : Instr → Fin 31
  | .getBoardId => 0
  | .getPassword => 1
  | .verifyPassword _ _ _ => 2
  | .setPassword _ _ _ => 3
  | .getMode => 4
  | .setModeLatching => 5
  | .setModeMomentary => 6
  | .getStatus => 7
  | .getFirmwareVersion => 8
  | .getRelayStates => 9
  | .relay1High => 10
  | .relay2High => 11
  | .relay3High => 12
  | .relay4High => 13
  | .relay5High => 14
  | .relay6High => 15
  | .relay7High => 16
  | .relay8High => 17
  | .relay1Low => 18
  | .relay2Low => 19
  | .relay3Low => 20
  | .relay4Low => 21
  | .relay5Low => 22
  | .relay6Low => 23
  | .relay7Low => 24
  | .relay8Low => 25
  | .allHigh => 26
  | .allLow => 27
  | .getVoltage => 28
  | .getTempRaw => 29
  | .getTempAscii => 30

/-- The payload bytes of the command (R90, R102): three for the two commands of format F3, none for the others. -/
def Instr.payload : Instr → Bytes
  | .verifyPassword a b c => [a, b, c]
  | .setPassword a b c => [a, b, c]
  | .getBoardId => []
  | .getPassword => []
  | .getMode => []
  | .setModeLatching => []
  | .setModeMomentary => []
  | .getStatus => []
  | .getFirmwareVersion => []
  | .getRelayStates => []
  | .relay1High => []
  | .relay2High => []
  | .relay3High => []
  | .relay4High => []
  | .relay5High => []
  | .relay6High => []
  | .relay7High => []
  | .relay8High => []
  | .relay1Low => []
  | .relay2Low => []
  | .relay3Low => []
  | .relay4Low => []
  | .relay5Low => []
  | .relay6Low => []
  | .relay7Low => []
  | .relay8Low => []
  | .allHigh => []
  | .allLow => []
  | .getVoltage => []
  | .getTempRaw => []
  | .getTempAscii => []

/-- The 31 commands in the order of R96, the two of format F3 with a payload of zeros. -/
def Instr.all : List Instr :=
  [.getBoardId, .getPassword, .verifyPassword 0 0 0, .setPassword 0 0 0, .getMode, .setModeLatching,
   .setModeMomentary, .getStatus, .getFirmwareVersion, .getRelayStates,
   .relay1High, .relay2High, .relay3High, .relay4High, .relay5High, .relay6High, .relay7High, .relay8High,
   .relay1Low, .relay2Low, .relay3Low, .relay4Low, .relay5Low, .relay6Low, .relay7Low, .relay8Low,
   .allHigh, .allLow, .getVoltage, .getTempRaw, .getTempAscii]

end Sys2Proof
end

