-- ==== Sys2Proof/WellFormed.lean ====
section
/-! DEFINITION. What the encoder can produce (30_encoding.md R92, R101) and what the spec requires of an instantiation
of the parameters (R98, D2; D15; R94). -/

namespace Sys2Proof

/-- The 24-bit integer of three wire bytes, least significant byte first (20_memory.md R68, R173). -/
def wireValue (a b c : Byte) : Nat := a.toNat + 256 * b.toNat + 65536 * c.toNat

/-- A command the encoder can produce: the password value of format F3 is at most `PASSWORD_MAX` (R92, R101). -/
def Instr.wf : Instr → Bool
  | .verifyPassword a b c => wireValue a b c ≤ Config.passwordMax
  | .setPassword a b c => wireValue a b c ≤ Config.passwordMax
  | .getBoardId | .getPassword | .getMode | .setModeLatching | .setModeMomentary | .getStatus
  | .getFirmwareVersion | .getRelayStates
  | .relay1High | .relay2High | .relay3High | .relay4High | .relay5High | .relay6High | .relay7High | .relay8High
  | .relay1Low | .relay2Low | .relay3Low | .relay4Low | .relay5Low | .relay6Low | .relay7Low | .relay8Low
  | .allHigh | .allLow | .getVoltage | .getTempRaw | .getTempAscii => true

/-- `OPC` is injective: 31 distinct bytes (R98, D2). -/
def Config.opcodesDistinct (cfg : Config) : Bool := decide cfg.opc.toList.Nodup

/-- The premises the spec puts on the parameters: `OPC` injective (D2), the temperature timeout the shorter (D15), and
a status reply of at least one byte (R94: `Fixed n` has `n >= 1`). -/
def Config.wf (cfg : Config) : Bool :=
  cfg.opcodesDistinct && decide (cfg.timeoutTempMs < cfg.timeoutDefaultMs) && decide (1 ≤ cfg.rlenStatus)

end Sys2Proof
end

