-- ==== Sys2Proof/Decode.lean ====
section
/-! DEFINITION. From wire bytes to commands and back. The block itself never decodes a command stream (30_encoding.md
R104); the decoder is the inverse of its encoder under the opcode table, total on any bytes, and says by name why it
refuses. The encoder is the block's own `Encode` (40_codec_commands.md R120). Both take the parameter `OPC` from a
`Config`; no opcode is computed from another (R98). -/

namespace Sys2Proof

/-- Why a byte sequence is not a command. Safe: nothing runs. -/
inductive DecodeError where
  /-- There is no byte. -/
  | empty
  /-- The first byte is not `OPC[c]` for any command `c` (R104). -/
  | unknownOpcode (k : Byte)
  /-- A command of format F3 with fewer than three payload bytes (R104: reserved). -/
  | shortPayload
  /-- A payload whose value exceeds `PASSWORD_MAX`, which the encoder cannot produce (R92). -/
  | passwordTooLarge
  deriving DecidableEq, Repr

/-- `OPC[cmd]` (R98). -/
def Config.opcodeOf (cfg : Config) (i : Instr) : Byte := cfg.opc[i.number]

/-- The command whose opcode is `k`, its payload still zeros. -/
def Config.commandOf (cfg : Config) (k : Byte) : Option Instr :=
  Instr.all.find? (fun i => cfg.opcodeOf i == k)

/-- A command of format F3 takes the next three bytes (R92). -/
def decodePayload (mk : Byte → Byte → Byte → Instr) : Bytes → Except DecodeError (Instr × Bytes)
  | a :: b :: c :: rest => if (mk a b c).wf then .ok (mk a b c, rest) else .error .passwordTooLarge
  | _ => .error .shortPayload

/-- The command at the front of a byte sequence, and the bytes after it. The opcode decides the length (R93). -/
def decode (cfg : Config) : Bytes → Except DecodeError (Instr × Bytes)
  | [] => .error .empty
  | k :: rest =>
    match cfg.commandOf k with
    | none => .error (.unknownOpcode k)
    | some (.verifyPassword _ _ _) => decodePayload .verifyPassword rest
    | some (.setPassword _ _ _) => decodePayload .setPassword rest
    | some i => .ok (i, rest)

/-- `Encode(cmd, payload) = [OPC[cmd]] ++ payload` (R120): formats F0 and F3 (R91, R92). -/
def encode (cfg : Config) (i : Instr) : Bytes := cfg.opcodeOf i :: i.payload

/-- The wire bytes of a table word: bit 0 is bit 0 of the first byte, and every bit from `nbits` on is 0. Four bytes,
the longest command (R74). -/
def wordBytes (nbits w : Nat) : Bytes :=
  let v := w % 2 ^ nbits
  [byteOf v, byteOf (v / 256), byteOf (v / 65536), byteOf (v / 16777216)]

/-- The command the decoder reads from a table word under a configuration. -/
def decodeWordUnder (cfg : Config) (nbits w : Nat) : Option Instr :=
  match decode cfg (wordBytes nbits w) with
  | .ok (i, _) => some i
  | .error _ => none

/-- The command the decoder reads from a table word under the reference opcodes (log entry 1). -/
def decodeTableWord (nbits w : Nat) : Option Instr := decodeWordUnder Config.reference nbits w

end Sys2Proof
end

