-- ==== Sys2Proof/Machine/State.lean ====
section
/-! DEFINITION. The state of the machine: the block's record of 10_state.md R20, the transport's streams (20_memory.md
R60, R61), the further requesters over one transport (60_exceptions.md R340), the Session's record (10_state.md R35),
the configuration (R8, R31; constant) and the inputs still to come (R67). Plain data. The block has no addressable
memory (R33, R77), so there is no memory field. -/

namespace Sys2Proof.Machine

/-! ## Outcomes -/

/-- The recorded faults (R316): each ends the run until reset. -/
inductive Fault where
  /-- A transport write failed (R64). Recorded by the exchange (R296); answered by every later step until reset. Safe:
  the hardware would go on in a way the source does not give. -/
  | transportFault
  /-- A read would exceed `RESP_CAP` (R203). Recorded by the read step; answered by every later step until reset. Safe:
  as above. -/
  | bufferOverflow
  deriving DecidableEq, Repr

/-- A step without a meaning. -/
inductive Refusal where
  /-- An instruction `exec` does not model yet; raised by an arm of `exec` only. Safe. No arm raises it. -/
  | notModelled (mnemonic : String)
  deriving DecidableEq, Repr

/-- The error names (R310); `none` is success. -/
inductive ErrorCode where
  | none
  | notOpen
  | alreadyOpen
  | invalidPassword
  | timeout
  | syncFailed
  | authenticationFailed
  | invalidRelayNumber
  | cancelled
  deriving DecidableEq, Repr

/-! ## Values -/

/-- The mode read from the device (R24, R175). -/
inductive ModeReading where
  | latching
  | momentary
  | modeUnknown
  deriving DecidableEq, Repr

/-- `ResultValue` (R24). -/
inductive ResultValue where
  | unit
  | bool (b : Bool)
  | bitmask (m : Byte)
  | voltage (v : Byte)
  | firmware (w : Nat)
  | password (value : Nat) (text : Bytes) (inRange : Bool)
  | mode (m : ModeReading)
  | boardId (model version : Byte)
  | tempRaw (num : Nat)
  | tempAscii (neg : Bool) (mant frac : Nat)
  | raw (bytes : Bytes)
  deriving DecidableEq, Repr

/-- The result register (R20, R43). -/
structure OpResult where
  value : ResultValue
  ok : Bool
  err : ErrorCode
  deriving DecidableEq, Repr

/-- The Response of a read (R20, R209). -/
structure Response where
  bytes : Bytes
  ok : Bool
  deriving DecidableEq, Repr

/-! ## Control states -/

/-- `rsm_state` (R20, R28). -/
inductive RsmState where
  | idle
  | accumulating
  | satisfied
  | timedOut
  deriving DecidableEq, Repr

/-- `sup_state` (R20, R236). -/
inductive SupState where
  | idle
  | attempt
  | sleeping
  | synced
  | failed
  deriving DecidableEq, Repr

/-- `op_state` (R20, R231, R246). `done` is passed through inside one step and never rested in. -/
inductive OpState where
  | idle
  | firstTry
  | resync
  | retry
  | done
  deriving DecidableEq, Repr

/-! ## One requester's block state -/

/-- The registers of R20 that belong to one sequencer (R340). The pair (`cmd`, `payload`) of R20 is one `Instr`, whose
payload has the command's own length (log entry 23). `syncPw` is the local `p` of the supervisor's procedure
(R236), `cancelPending` the cancel input remembered until the next step boundary (R319), and `sleptMs` the model time this
sequencer has slept since reset (R204, R240); the three are the model's own (log entries 17, 9 and 10). -/
structure Sequencer where
  req : Request
  cmd : Instr
  acc : Bytes
  rsmState : RsmState
  rsmExpected : Int
  rsmTimeoutMs : Nat
  idleMs : Nat
  resp : Response
  supState : SupState
  attemptCnt : Nat
  syncPw : Byte × Byte × Byte
  opState : OpState
  authValid : Bool
  authResult : Bool
  result : OpResult
  cancelPending : Bool
  sleptMs : Nat
  deriving DecidableEq, Repr

/-- The reset values of R20 and R50. `req` and `cmd` have none (R52, log entry 3). -/
def Sequencer.reset : Sequencer :=
  { req := .getBoardId
    cmd := .getBoardId
    acc := []
    rsmState := .idle
    rsmExpected := 0
    rsmTimeoutMs := 0
    idleMs := 0
    resp := { bytes := [], ok := false }
    supState := .idle
    attemptCnt := 0
    syncPw := (0, 0, 0)
    opState := .idle
    authValid := false
    authResult := false
    result := { value := .unit, ok := false, err := .none }
    cancelPending := false
    sleptMs := 0 }

/-! ## The Session (44_session.md) -/

/-- The operations that read one result and report it (R265, R266, R269, R271, R272, R273). -/
inductive Query where
  | password
  | relays
  | relay (n : Int)
  | mode
  | voltage
  | temperature
  deriving DecidableEq, Repr

/-- Where a public operation stands between two of its requests (44_session.md): each constructor names the request
whose result it waits for, and holds what the operation needs after it. `idle`: no public operation is running. -/
inductive CallPhase where
  | idle
  | openSync
  | openBoard
  | openFirmware (id : OpResult)
  | changeOld (new : Bytes)
  | changeSet (new : Bytes)
  | changeNew (new : Bytes)
  | relaySet (n : Int) (state : Bool)
  | relayConfirm (n : Int) (state : Bool)
  | allSet (state : Bool)
  | allConfirm (state : Bool)
  | modeRead (mode : Mode) (sends : Nat)
  | modeSent (mode : Mode) (sends : Nat)
  | query (q : Query)
  deriving DecidableEq, Repr

/-- What a public operation reports. `hardFailure` is a transport open that failed, for which the source names no
error (R261, N10). -/
inductive CallValue where
  | nothing
  | success (b : Bool)
  | relays (states : List Bool)
  | relay (b : Bool)
  | mode (m : ModeReading)
  | text (t : Bytes)
  | number (n : Nat)
  | temperature (neg : Bool) (mant frac : Nat)
  | hardFailure
  deriving DecidableEq, Repr

/-- The value and the error signal a public operation returned last (R276). -/
structure CallReturn where
  value : CallValue
  err : ErrorCode
  deriving DecidableEq, Repr

/-- One requester (R340): its sequencer, the public operation it runs, and what the last one returned. -/
structure Thread where
  seq : Sequencer
  call : CallPhase
  ret : CallReturn
  deriving DecidableEq, Repr

/-- A requester at reset. -/
def Thread.reset : Thread :=
  { seq := Sequencer.reset, call := .idle, ret := { value := .nothing, err := .none } }

/-- The read-once identity fields (R35, R264). -/
structure Identity where
  boardModel : Byte
  boardVersion : Byte
  firmwareVersion : Nat
  channelCount : Nat
  deriving DecidableEq, Repr

/-- The Session's state (R35). -/
structure Session where
  isOpen : Bool
  isAuthenticated : Bool
  currentPassword : Bytes
  identity : Option Identity
  deriving DecidableEq, Repr

/-- The reset values of R35. -/
def Session.reset : Session :=
  { isOpen := false, isAuthenticated := false, currentPassword := [], identity := none }

/-! ## The machine -/

/-- The whole state. `seq`, `call` and `ret` are those of the requester whose turn it is; `parked` are the other
requesters (R340), none in the single block of R20. `curPw`, `gateHeld` and `fault` are shared. `rx`, `tx` and
`transportOpen` are the transport's (R44, R60, R61). `now` is the input sampled for the step being taken, `inputs`
those still to come, `inputCount` how many were sampled. -/
structure State where
  cfg : Config
  seq : Sequencer
  call : CallPhase
  ret : CallReturn
  parked : List Thread
  curPw : Bytes
  gateHeld : Bool
  fault : Option Fault
  session : Session
  transportOpen : Bool
  tx : Bytes
  rx : Bytes
  now : Input
  inputs : List Input
  inputCount : Nat
  deriving DecidableEq, Repr

/-- The machine right after reset (R50, R350), under the reference configuration (log entry 1), with the transport
closed and both streams empty (log entry 4) and no input listed (log entry 2). -/
def State.reset : State :=
  { cfg := Config.reference
    seq := Sequencer.reset
    call := .idle
    ret := { value := .nothing, err := .none }
    parked := []
    curPw := []
    gateHeld := false
    fault := none
    session := Session.reset
    transportOpen := false
    tx := []
    rx := []
    now := Input.quiet
    inputs := []
    inputCount := 0 }

end Sys2Proof.Machine
end

