-- ==== Sys2Proof/Machine/Operands.lean ====
section
/-! DEFINITION. From a request to a wire command (30_encoding.md sections 4 and 5): the relay lookup table, the password
encoder and its text form, `Resolve`; and the reply kinds (R94) with the count a read is started with (R30). -/

namespace Sys2Proof.Machine

/-! ## Passwords -/

/-- An ASCII decimal digit (R101): `0x30` to `0x39`. -/
def isDigit (c : Byte) : Bool := decide (0x30 ≤ c.toNat) && decide (c.toNat ≤ 0x39)

/-- The natural number a digit sequence spells, most significant digit first (R101, R179). -/
def decimalValue (ds : Bytes) : Nat := ds.foldl (fun v c => 10 * v + (c.toNat - 0x30)) 0

/-- A text `encodePassword` accepts (R101): exactly six ASCII digits. -/
def validPassword (pw : Bytes) : Bool := decide (pw.length = Config.passwordLen) && pw.all isDigit

/-- `encodePassword(pw)` (R101): the three low-order bytes of the little-endian value, or `none` for
`InvalidPassword`. -/
def encodePassword (pw : Bytes) : Option (Byte × Byte × Byte) :=
  if validPassword pw then
    let v := decimalValue pw
    if v ≤ Config.passwordMax then some (byteOf v, byteOf (v / 256), byteOf (v / 65536)) else none
  else none

/-- The ASCII code of a decimal digit. -/
def digitCode (d : Nat) : Byte := byteOf (0x30 + d % 10)

/-- The decimal digits of a number, most significant first, without leading zeros, `"0"` for 0 (R173); the fuel bounds
their count. -/
def decimalDigits : Nat → Nat → Bytes
  | 0, _ => []
  | fuel + 1, n => if n < 10 then [digitCode n] else decimalDigits fuel (n / 10) ++ [digitCode n]

/-- The text of a password value (R173): its digits, padded with `'0'` on the left to six characters. A 24-bit value has
at most eight digits. -/
def passwordText (value : Nat) : Bytes :=
  let digits := decimalDigits 8 value
  List.replicate (Config.passwordLen - digits.length) 0x30 ++ digits

/-! ## The relay lookup table -/

/-- `relayCommand(n, s)` (R100): a table, no arithmetic; `none` for a relay number outside 1 to 8. -/
def relayCommand (n : Int) (state : Bool) : Option Instr :=
  if n = 1 then some (if state then .relay1High else .relay1Low)
  else if n = 2 then some (if state then .relay2High else .relay2Low)
  else if n = 3 then some (if state then .relay3High else .relay3Low)
  else if n = 4 then some (if state then .relay4High else .relay4Low)
  else if n = 5 then some (if state then .relay5High else .relay5Low)
  else if n = 6 then some (if state then .relay6High else .relay6Low)
  else if n = 7 then some (if state then .relay7High else .relay7Low)
  else if n = 8 then some (if state then .relay8High else .relay8Low)
  else none

/-! ## Resolve -/

/-- `Resolve(req)` (R99): the wire command of a request, or the error it raises. `synchronize` names no command; the
sequencer never resolves it (R242). -/
def resolve : Request → Except ErrorCode (Option Instr)
  | .getBoardId => .ok (some .getBoardId)
  | .getPassword => .ok (some .getPassword)
  | .verifyPassword pw =>
    match encodePassword pw with
    | some (a, b, c) => .ok (some (.verifyPassword a b c))
    | none => .error .invalidPassword
  | .setPassword pw =>
    match encodePassword pw with
    | some (a, b, c) => .ok (some (.setPassword a b c))
    | none => .error .invalidPassword
  | .getMode => .ok (some .getMode)
  | .setMode .latching => .ok (some .setModeLatching)
  | .setMode .momentary => .ok (some .setModeMomentary)
  | .getStatus => .ok (some .getStatus)
  | .getFirmwareVersion => .ok (some .getFirmwareVersion)
  | .getRelayStates => .ok (some .getRelayStates)
  | .setRelay n state =>
    match relayCommand n state with
    | some i => .ok (some i)
    | none => .error .invalidRelayNumber
  | .setAllRelays true => .ok (some .allHigh)
  | .setAllRelays false => .ok (some .allLow)
  | .getVoltage => .ok (some .getVoltage)
  | .getTemperatureRaw => .ok (some .getTempRaw)
  | .getTemperatureAscii => .ok (some .getTempAscii)
  | .synchronize => .ok none

/-- The request that stands for a command (R99, R100 read backwards; a password as its six-digit text, R173). -/
def requestOf : Instr → Request
  | .getBoardId => .getBoardId
  | .getPassword => .getPassword
  | .verifyPassword a b c => .verifyPassword (passwordText (wireValue a b c))
  | .setPassword a b c => .setPassword (passwordText (wireValue a b c))
  | .getMode => .getMode
  | .setModeLatching => .setMode .latching
  | .setModeMomentary => .setMode .momentary
  | .getStatus => .getStatus
  | .getFirmwareVersion => .getFirmwareVersion
  | .getRelayStates => .getRelayStates
  | .relay1High => .setRelay 1 true
  | .relay2High => .setRelay 2 true
  | .relay3High => .setRelay 3 true
  | .relay4High => .setRelay 4 true
  | .relay5High => .setRelay 5 true
  | .relay6High => .setRelay 6 true
  | .relay7High => .setRelay 7 true
  | .relay8High => .setRelay 8 true
  | .relay1Low => .setRelay 1 false
  | .relay2Low => .setRelay 2 false
  | .relay3Low => .setRelay 3 false
  | .relay4Low => .setRelay 4 false
  | .relay5Low => .setRelay 5 false
  | .relay6Low => .setRelay 6 false
  | .relay7Low => .setRelay 7 false
  | .relay8Low => .setRelay 8 false
  | .allHigh => .setAllRelays true
  | .allLow => .setAllRelays false
  | .getVoltage => .getVoltage
  | .getTempRaw => .getTemperatureRaw
  | .getTempAscii => .getTemperatureAscii

/-! ## Replies and failure values -/

/-- `ReplyKind` (R94). -/
inductive ReplyKind where
  | none
  | fixed (n : Nat)
  | untilIdle
  deriving DecidableEq, Repr

/-- The `expectedBytes` a read is started with (R30): `Fixed n` loads `n`, `UntilIdle` loads 0. -/
def ReplyKind.expected : ReplyKind → Int
  | .none => 0
  | .fixed n => n
  | .untilIdle => 0

/-- `Default(cmd)` of any command the request can resolve to (R186, R231); `Bool(false)` for `synchronize` (R242). -/
def failureOf : Request → ResultValue
  | .getBoardId => .boardId 0 0
  | .getPassword => .password 0 [0x30, 0x30, 0x30, 0x30, 0x30, 0x30] true
  | .verifyPassword _ => .bool false
  | .setPassword _ => .unit
  | .getMode => .mode .modeUnknown
  | .setMode _ => .unit
  | .getStatus => .raw []
  | .getFirmwareVersion => .firmware 0
  | .getRelayStates => .bitmask 0x00
  | .setRelay _ _ => .unit
  | .setAllRelays _ => .unit
  | .getVoltage => .voltage 0
  | .getTemperatureRaw => .tempRaw 0
  | .getTemperatureAscii => .tempAscii false 0 0
  | .synchronize => .bool false

/-! ## Error codes -/

/-- The 4-bit code of an error (R310). -/
def ErrorCode.code : ErrorCode → BitVec 4
  | .none => 0
  | .notOpen => 1
  | .alreadyOpen => 2
  | .invalidPassword => 3
  | .timeout => 4
  | .syncFailed => 5
  | .authenticationFailed => 6
  | .invalidRelayNumber => 7
  | .cancelled => 8

end Sys2Proof.Machine
end

