-- ==== Sys2Proof/Machine/Decoders.lean ====
section
/-! DEFINITION. The response decoders (41_codec_decoders.md): pure functions of the reply bytes and the configuration.
A fixed-length decoder reads the leading bytes of the Response and ignores the rest (R185); a byte past the end, which a
satisfied read never lacks (R170), reads as 0 (DESIGN CHOICE, log entry 21). -/

namespace Sys2Proof.Machine

/-- The reply byte at an index (R11). -/
def replyByte (bs : Bytes) (k : Nat) : Byte := bs.getD k 0

/-- `DEC_BOOL(b)` (R171): a total function of the byte, given by the configuration. -/
def decodeBool (cfg : Config) (b : Byte) : Bool := !cfg.verifyFalse.contains b

/-- `decodeRelayBit(stateByte, n)` (R172), for a relay number in 1 to 8: bit `n - 1` of the byte. -/
def decodeRelayBit (m : Byte) (n : Nat) : Bool := m.getLsbD (n - 1)

/-- `decodePassword` (R173). -/
def decodePassword (a b c : Byte) : ResultValue :=
  let v := wireValue a b c
  .password v (passwordText v) (decide (v ≤ Config.passwordMax))

/-- The relay map of a bitmask (R174): relays 1 to 8 in order. -/
def decodeRelays (m : Byte) : List Bool := [1, 2, 3, 4, 5, 6, 7, 8].map (decodeRelayBit m)

/-- `decodeMode(b)` (R175): compared with the two set-mode opcodes. -/
def decodeMode (cfg : Config) (b : Byte) : ModeReading :=
  if b = cfg.opcodeOf .setModeLatching then .latching
  else if b = cfg.opcodeOf .setModeMomentary then .momentary
  else .modeUnknown

/-- `decodeVoltage` (R176): the byte itself. -/
def decodeVoltage (b : Byte) : Byte := b

/-- `decodeFirmwareVersion` (R177): little-endian. -/
def decodeFirmwareVersion (b0 b1 : Byte) : Nat := b0.toNat + 256 * b1.toNat

/-- The numerator of `decodeTemperature` for the raw form (R178): the temperature is this number over 16. The weight is
255, as the source writes it (R69, U11). -/
def decodeTempRaw (b0 b1 : Byte) : Nat := 255 * b0.toNat + b1.toNat

/-- The board identity (R180): model first, unless the configuration swaps the two (D4). -/
def decodeBoardId (cfg : Config) (b0 b1 : Byte) : ResultValue :=
  if cfg.boardModelFirst then .boardId b0 b1 else .boardId b1 b0

/-! ## The ASCII temperature (R179) -/

/-- The bytes trimmed from both ends: tab, LF, VT, FF, CR, space. -/
def isSpace (c : Byte) : Bool := [0x09, 0x0A, 0x0B, 0x0C, 0x0D, 0x20].contains c

/-- The text without leading and trailing white space. -/
def trim (bs : Bytes) : Bytes := ((bs.dropWhile isSpace).reverse.dropWhile isSpace).reverse

/-- An optional sign at the front: whether it is `'-'`, and the rest. -/
def takeSign : Bytes → Bool × Bytes
  | [] => (false, [])
  | c :: cs => if c = 0x2D then (true, cs) else if c = 0x2B then (false, cs) else (false, c :: cs)

/-- `DIGIT+ [ '.' DIGIT+ ]` in full: the digits before and after the point. -/
def takeDecimal (t : Bytes) : Option (Bytes × Bytes) :=
  let ip := t.takeWhile isDigit
  if ip = [] then none else
  match t.dropWhile isDigit with
  | [] => some (ip, [])
  | p :: fp => if p = 0x2E && fp ≠ [] && fp.all isDigit then some (ip, fp) else none

/-- `decodeTempAscii(bytes)` (R179): a text outside the grammar is a successful decode of 0. -/
def decodeTempAscii (bs : Bytes) : ResultValue :=
  let signed := takeSign (trim bs)
  match takeDecimal signed.2 with
  | none => .tempAscii false 0 0
  | some (ip, fp) =>
    let mant := decimalValue (ip ++ fp)
    .tempAscii (signed.1 && decide (mant ≠ 0)) mant fp.length

end Sys2Proof.Machine
end

