-- ==== Sys2Proof/Machine/Ops.lean ====
section
/-! DEFINITION. The named operations over the state: sampling the outside (20_memory.md R67), the transport's three
primitives (R62 to R64), sleeping (42_read_state_machine.md R204), accepting a request (10_state.md R41), ending an
operation (43_sync_supervisor.md R231 `Finish`, 60_exceptions.md R318 `raise`), reset (R50, R351) and the turn of the
requesters (R340). -/

namespace Sys2Proof.Machine

/-! ## The outside world -/

/-- The input of the step about to be taken: the next listed one, or a free one when none is listed (DESIGN CHOICE, log
entry 2). -/
def State.nextInput (s : State) : Input :=
  match s.inputs with
  | d :: _ => d
  | [] => Config.freeInput s.inputCount

/-- Sample the outside before a step: the bytes the device sent join the back of `rx` (R61, R67); the rest of the input
is held in `now`. -/
def State.sample (s : State) : State :=
  { s with now := s.nextInput, rx := s.rx ++ s.nextInput.arr, inputs := s.inputs.tail,
           inputCount := s.inputCount + 1 }

/-! ## Transport primitives (20_memory.md section 1) -/

/-- `RxAvail()` (R62). -/
def State.rxAvail (s : State) : Nat := s.rx.length

/-- The bytes `RxRead(n)` returns (R63). -/
def State.rxFront (s : State) (n : Nat) : Bytes := s.rx.take n

/-- What `RxRead(n)` leaves (R63): the read is destructive. -/
def State.rxDrop (s : State) (n : Nat) : State := { s with rx := s.rx.drop n }

/-- `TxWrite(bytes)` (R64): success appends all of `bytes`; a failure appends the part that reached the line and records
the fault. Which of the two happens is the input's draw (log entry 16). -/
def State.txWrite (bytes : Bytes) (s : State) : State :=
  match s.now.writeFault with
  | none => { s with tx := s.tx ++ bytes }
  | some k => { s with tx := s.tx ++ bytes.take k, fault := some .transportFault }

/-- `Sleep(ms)`: model time passes and nothing else happens (R12, R46). -/
def Sequencer.sleep (ms : Nat) (q : Sequencer) : Sequencer := { q with sleptMs := q.sleptMs + ms }

/-! ## Beginning and ending an operation -/

/-- Command acceptance (R41): the request is latched and the operation is in its first try. -/
def State.accept (r : Request) (s : State) : State :=
  { s with seq := { s.seq with req := r, opState := .firstTry } }

/-- `Finish(v, e)` (R231): record the result; `op_state` goes through `Done` to `Idle`. A cancel that came too late for
a boundary is forgotten with the operation. -/
def State.finish (v : ResultValue) (e : ErrorCode) (s : State) : State :=
  let done := { s.seq with result := { value := v, ok := decide (e = ErrorCode.none), err := e }, opState := .done }
  { s with seq := { done with opState := .idle, cancelPending := false } }

/-- `raise <Error>` (R318), the block's only "trap": the result holds the failure value and the error, and the three
machines are idle. Nothing else is saved or changed; the gate is already free. There is no return: the next request is
accepted as after a success (R323). -/
def State.raise (failure : ResultValue) (e : ErrorCode) (s : State) : State :=
  ({ s with seq := { s.seq with supState := .idle, rsmState := .idle } } : State).finish failure e

/-! ## Reset (R50, R51, R350, R351) -/

/-- The block's reset: every field of R20, of every requester, takes its reset value; the transport, the configuration,
the host's records and the inputs are not touched (all requesters together: DEDUCED, log entry 8). -/
def State.blockReset (s : State) : State :=
  { s with seq := Sequencer.reset
           parked := s.parked.map (fun t => { t with seq := Sequencer.reset })
           curPw := [], gateHeld := false, fault := none }

/-- The reset input (R40), which is power-on (R50): the block's reset, and the host starts anew with the reset values of
R35 (DEDUCED, log entry 11). -/
def State.powerOn (s : State) : State :=
  { s with seq := Sequencer.reset, call := .idle, ret := Thread.reset.ret
           parked := s.parked.map (fun _ => Thread.reset)
           curPw := [], gateHeld := false, fault := none, session := Session.reset }

/-! ## Several requesters (R340) -/

/-- The requester whose turn it is, as one record. -/
def State.thread (s : State) : Thread := { seq := s.seq, call := s.call, ret := s.ret }

/-- All requesters. -/
def State.threads (s : State) : List Thread := s.thread :: s.parked

/-- Give the turn to the `k`-th parked requester; the one that had it takes its place. With no such requester nothing
happens (DESIGN CHOICE, log entry 8). -/
def State.switchTo (k : Nat) (s : State) : State :=
  match s.parked[k]? with
  | none => s
  | some t => { s with seq := t.seq, call := t.call, ret := t.ret, parked := s.parked.set k s.thread }

end Sys2Proof.Machine
end

