-- ==== Sys2Proof/Machine/Flags.lean ====
section
/-! DEFINITION. The block's one-bit status values (10_state.md R29): `busy`, the Serialization Gate (45_gate_and_exchange.md
R290 to R292), the response flag (R209, R297), the auth latch (43_sync_supervisor.md R239), and the remembered cancel
input (60_exceptions.md R319). The block has no condition codes. -/

namespace Sys2Proof.Machine

/-- `busy = (op_state != Idle)` (R29), of one sequencer. -/
def Sequencer.busy (q : Sequencer) : Bool := decide (q.opState ≠ .idle)

/-- An exchange is under way: its read has started and has not been finished (R296). -/
def Sequencer.inExchange (q : Sequencer) : Bool := decide (q.rsmState ≠ .idle)

/-- A requester that neither runs an operation nor is between two requests of a public operation. -/
def Thread.quiet (t : Thread) : Bool := !t.seq.busy && decide (t.call = .idle)

/-- No requester is active (R84, R277): the only time a raw host changes the transport or loads the password register, and
the only time `close` or the opening of a closed session begins. `changePassword` does not wait for it: of its adoption of
the new password it is known only that its own requester is idle (DESIGN CHOICE, log entry 24). -/
def State.quiet (s : State) : Bool := s.threads.all Thread.quiet

/-- A public operation in the middle of `open` (R261). -/
def CallPhase.opening : CallPhase → Bool
  | .openSync | .openBoard | .openFirmware _ => true
  | .idle | .changeOld _ | .changeSet _ | .changeNew _ | .relaySet _ _ | .relayConfirm _ _ | .allSet _ | .allConfirm _
  | .modeRead _ _ | .modeSent _ _ | .query _ => false

/-- Another requester is in the middle of `open` (R277: nothing may start beside it). -/
def State.openingElsewhere (s : State) : Bool := s.parked.any (fun t => t.call.opening)

/-- Acquire (R291): the free token is taken. -/
def State.takeGate (s : State) : State := { s with gateHeld := true }

/-- Release (R292). -/
def State.releaseGate (s : State) : State := { s with gateHeld := false }

/-- The Response of an exchange (R209, R297). -/
def Sequencer.respond (bytes : Bytes) (ok : Bool) (q : Sequencer) : Sequencer :=
  { q with resp := { bytes := bytes, ok := ok } }

/-- A definite boolean sets the auth latch (R239). -/
def Sequencer.latchAuth (b : Bool) (q : Sequencer) : Sequencer := { q with authValid := true, authResult := b }

/-- Exhaustion clears the auth latch (R239). -/
def Sequencer.clearAuth (q : Sequencer) : Sequencer := { q with authValid := false, authResult := false }

/-- The cancel input is asserted in this step (R45); without `HAS_CANCEL` the port does not exist. -/
def State.cancelAsserted (s : State) : Bool := s.cfg.hasCancel && decide (s.now.move = .cancel)

/-- Remember a cancel until the next boundary (R319). -/
def State.noteCancel (s : State) : State :=
  { s with seq := { s.seq with cancelPending := s.seq.cancelPending || s.cancelAsserted } }

/-- A boundary at which a cancel is taken (R45, R319): anywhere but between the end of a read and its finish, where the
exchange is only handing over its Response (log entry 9). -/
def Sequencer.atBoundary (q : Sequencer) : Bool :=
  match q.rsmState with
  | .idle | .accumulating => true
  | .satisfied | .timedOut => false

end Sys2Proof.Machine
end

