-- ==== Sys2Proof/Machine/Reader.lean ====
section
/-! DEFINITION. The read state machine (42_read_state_machine.md): start (R201), one step (R210, from R202 to R208) and
finish (R209). -/

namespace Sys2Proof.Machine

/-- `RsmStart(expected, timeout_ms)` (R201). -/
def Sequencer.rsmStart (expected : Int) (timeoutMs : Nat) (q : Sequencer) : Sequencer :=
  { q with rsmExpected := expected, rsmTimeoutMs := timeoutMs, acc := [], idleMs := 0, rsmState := .accumulating }

/-- The exits of one step (R205 to R208, in the order of D39). -/
def Sequencer.rsmExit (q : Sequencer) : Sequencer :=
  if 0 < q.rsmExpected ∧ q.rsmExpected ≤ q.acc.length then { q with rsmState := .satisfied }
  else if q.rsmTimeoutMs < q.idleMs then
    if q.rsmExpected ≤ 0 ∧ 1 ≤ q.acc.length then { q with rsmState := .satisfied }
    else { q with rsmState := .timedOut }
  else q

/-- The response buffer would exceed `RESP_CAP` with `n` more bytes (R203). -/
def State.overflows (s : State) (n : Nat) : Bool :=
  match s.cfg.respCap with
  | none => false
  | some cap => decide (cap < s.seq.acc.length + n)

/-- The read branch's registers (R203): all available bytes are appended and the idle clock restarts. -/
def Sequencer.rsmTake (bytes : Bytes) (q : Sequencer) : Sequencer := { q with acc := q.acc ++ bytes, idleMs := 0 }

/-- The sleep branch's registers (R204). -/
def Sequencer.rsmSleep (q : Sequencer) : Sequencer :=
  { q.sleep Config.pollMs with idleMs := q.idleMs + Config.pollMs }

/-- `RsmFinish()` (R209): the Response of a satisfied read is what it accumulated, that of a timed-out read is empty; a
read that a fault cut short leaves the Response as it was. The buffer is empty and the read idle after it. -/
def Sequencer.rsmFinish (q : Sequencer) : Sequencer :=
  match q.rsmState with
  | .satisfied => { q.respond q.acc true with acc := [], rsmState := .idle }
  | .timedOut => { q.respond [] false with acc := [], rsmState := .idle }
  | .idle | .accumulating => { q with acc := [], rsmState := .idle }

/-- `RsmStep` (R210); the arrivals of the step are already at the back of `rx`. An overflow records the fault, with nothing
read (R203), and is followed by `RsmFinish` (42_read_state_machine.md, `RsmRun`) and the release of the gate (R296,
R292); that these are one step is DEDUCED, log entry 16. -/
def State.rsmStep (s : State) : State :=
  let n := s.rxAvail
  if 0 < n then
    if s.overflows n then { s.releaseGate with fault := some .bufferOverflow, seq := s.seq.rsmFinish }
    else { s.rxDrop n with seq := (s.seq.rsmTake (s.rxFront n)).rsmExit }
  else { s with seq := s.seq.rsmSleep.rsmExit }

end Sys2Proof.Machine
end

