-- ==== Sys2Proof/Machine/Exchange.lean ====
section
/-! DEFINITION. The write+read exchange under the gate (45_gate_and_exchange.md R296): its beginning (acquire, write,
start of the read, or the whole exchange of a command without a reply) and its end (finish of the read, release). -/

namespace Sys2Proof.Machine

/-- The beginning of `Exchange(cmd, payload, t)` (R296) once the gate is free: take it, write the command in one piece
(R64, R74), then start the read (R201). A command without a reply ends here with the Response `([], true)` and frees the
gate (R297); a failed write frees it and leaves the fault recorded (R292, R316). -/
def State.beginExchange (i : Instr) (reply : ReplyKind) (timeoutMs : Nat) (s : State) : State :=
  let written := s.takeGate.txWrite (encode s.cfg i)
  match written.fault with
  | some _ => written.releaseGate
  | none =>
    match reply with
    | .none => { written.releaseGate with seq := written.seq.respond [] true }
    | .fixed n => { written with seq := written.seq.rsmStart (ReplyKind.fixed n).expected timeoutMs }
    | .untilIdle => { written with seq := written.seq.rsmStart ReplyKind.untilIdle.expected timeoutMs }

/-- The end of an exchange whose read has ended (R209, R292). -/
def State.endExchange (s : State) : State := { s.releaseGate with seq := s.seq.rsmFinish }

/-- Abandon the exchange under way, if any, as a cancel does (R319): its bytes are discarded and the gate is freed; the
Response is that of a read without a result. -/
def State.abandonExchange (s : State) : State :=
  if s.seq.inExchange then
    { s.releaseGate with seq := { s.seq.respond [] false with acc := [], rsmState := .idle } }
  else s

end Sys2Proof.Machine
end

