-- ==== Sys2Proof/Machine/Supervisor.lean ====
section
/-! DEFINITION. The synchronization supervisor (43_sync_supervisor.md R236): its start, one round trip, the end of a round
trip, and the sleep between two. `failure` is the value reported if the operation it serves ends at the start. -/

namespace Sys2Proof.Machine

/-- An attempt is due: `sup_state <- Attempt`, and it is counted, before its exchange takes the gate (R236; DEDUCED, log
entry 25). -/
def Sequencer.beginAttempt (q : Sequencer) : Sequencer :=
  { q with supState := .attempt, attemptCnt := q.attemptCnt + 1 }

/-- The start of `Resync()` (R236): the attempt count is cleared and the current password is encoded, once for all the
round trips (log entry 17); a malformed one ends the operation before anything is written (R237). -/
def State.resyncStart (failure : ResultValue) (s : State) : State :=
  let cleared : State := { s with seq := { s.seq with attemptCnt := 0 } }
  match encodePassword s.curPw with
  | none => cleared.raise failure .invalidPassword
  | some p => { cleared with seq := ({ cleared.seq with syncPw := p } : Sequencer).beginAttempt }

/-- The command of a round trip (R236): `VERIFY_PASSWORD` with the password encoded at the start. -/
def Sequencer.verification (q : Sequencer) : Instr := .verifyPassword q.syncPw.1 q.syncPw.2.1 q.syncPw.2.2

/-- One round trip begins (R236, R243): a plain exchange of `VERIFY_PASSWORD` with the default timeout (R248). While another
requester holds the gate it waits (R291). -/
def State.roundTrip (s : State) : State :=
  if s.gateHeld then s else s.beginExchange s.seq.verification (.fixed 1) s.cfg.timeoutDefaultMs

/-- The end of a round trip (R236, R238 to R241), after its exchange has ended: a definite boolean is latched; the tenth
timeout clears the latch; any other timeout is followed by a sleep. -/
def State.roundTripEnd (s : State) : State :=
  if s.seq.resp.ok then
    { s with seq := { s.seq.latchAuth (decodeBool s.cfg (replyByte s.seq.resp.bytes 0)) with supState := .synced } }
  else if s.seq.attemptCnt = Config.syncMaxAttempts then
    { s with seq := { s.seq.clearAuth with supState := .failed } }
  else { s with seq := { s.seq with supState := .sleeping } }

/-- The sleep between two attempts (R240), after which the next is due. -/
def State.resyncSleep (s : State) : State :=
  { s with seq := (s.seq.sleep Config.syncSleepMs).beginAttempt }

end Sys2Proof.Machine
end

