-- ==== Sys2Proof/Machine/Sequencer.lean ====
section
/-! DEFINITION. The operation sequencer (43_sync_supervisor.md R231, R242): one step of the operation of a wire command,
shared by the meanings of all 31, and one step of the bare resynchronisation. A step is chosen by `op_state`, `sup_state`
and `rsm_state` (10_state.md R26). -/

namespace Sys2Proof.Machine

/-- What distinguishes one command's operation from another's: its reply kind (R97), the timeout of its read (R298), the
decoder of its Response (R170) and its failure value (R186). -/
structure CommandMeaning where
  reply : ReplyKind
  timeoutMs : Nat
  decode : Bytes → ResultValue
  failure : ResultValue

/-- One attempt at the command's own exchange (R231): wait for the gate (R291), begin the exchange, and finish at once
when there is no reply. -/
def State.attemptCommand (i : Instr) (m : CommandMeaning) (s : State) : State :=
  if s.gateHeld then s
  else
    let s' := s.beginExchange i m.reply m.timeoutMs
    match m.reply, s'.fault with
    | .none, none => s'.finish .unit .none
    | .none, some _ => s'
    | .fixed _, _ => s'
    | .untilIdle, _ => s'

/-- The start of `Operation(req)` for a resolved request (R231): the transport must be open; the command registers are
written; the first exchange begins. A meaning run in an idle state starts here too (DESIGN CHOICE, log entry 15). -/
def State.firstTry (i : Instr) (m : CommandMeaning) (s : State) : State :=
  let s' : State := { s with seq := { s.seq with opState := .firstTry } }
  if s.transportOpen then ({ s' with seq := { s'.seq with cmd := i } } : State).attemptCommand i m
  else s'.raise m.failure .notOpen

/-- After a read has ended and its exchange with it (R231, R236): a satisfied read of the command itself is decoded; the
first timeout starts the supervisor (R230), the retry's ends the operation (R234); a round trip's read is the
supervisor's. -/
def State.afterRead (m : CommandMeaning) (s : State) : State :=
  match s.seq.opState with
  | .idle | .firstTry | .done =>
    if s.seq.resp.ok then s.finish (m.decode s.seq.resp.bytes) .none
    else { s with seq := { s.seq with opState := .resync } }
  | .retry =>
    if s.seq.resp.ok then s.finish (m.decode s.seq.resp.bytes) .none
    else s.raise m.failure .timeout
  | .resync => s.roundTripEnd

/-- One step of the supervisor's procedure inside an operation (R231, R236). Once synced the command is retried, whatever
the boolean (R233); once failed the operation ends (R235). -/
def State.superviseCommand (failure : ResultValue) (s : State) : State :=
  match s.seq.supState with
  | .idle => s.resyncStart failure
  | .attempt => s.roundTrip
  | .sleeping => s.resyncSleep
  | .synced => { s with seq := { s.seq with supState := .idle, opState := .retry } }
  | .failed => s.raise failure .syncFailed

/-- One step of `Operation(req)` for the command `i` (R231). -/
def State.operateStep (i : Instr) (m : CommandMeaning) (s : State) : State :=
  match s.seq.rsmState with
  | .accumulating => s.rsmStep
  | .satisfied | .timedOut => s.endExchange.afterRead m
  | .idle =>
    match s.seq.opState with
    | .idle | .firstTry | .done => s.firstTry i m
    | .resync => s.superviseCommand m.failure
    | .retry => s.attemptCommand i m

/-- The shared meaning of a wire command (R152): a faulted block takes no step (R316). -/
def operate (i : Instr) (m : CommandMeaning) (s : State) : Host.Outcome State Fault Refusal :=
  match s.fault with
  | some f => .fault f
  | none => .next (s.operateStep i m)

/-! ## The bare resynchronisation (R242) -/

/-- The start of `Operation(Synchronize)`. -/
def State.syncStart (s : State) : State :=
  let s' : State := { s with seq := { s.seq with opState := .resync } }
  if s.transportOpen then s'.resyncStart (.bool false) else s'.raise (.bool false) .notOpen

/-- One step of the supervisor's procedure when no command called it. -/
def State.superviseBare (s : State) : State :=
  match s.seq.supState with
  | .idle => s.resyncStart (.bool false)
  | .attempt => s.roundTrip
  | .sleeping => s.resyncSleep
  | .synced =>
    ({ s with seq := { s.seq with supState := .idle } } : State).finish (.bool s.seq.authResult) .none
  | .failed => s.raise (.bool false) .syncFailed

/-- One step of `Operation(Synchronize)` (R242). -/
def State.syncStep (s : State) : State :=
  match s.seq.rsmState with
  | .accumulating => s.rsmStep
  | .satisfied | .timedOut => s.endExchange.roundTripEnd
  | .idle =>
    match s.seq.opState with
    | .idle | .firstTry | .done | .retry => s.syncStart
    | .resync => s.superviseBare

/-! ## Ends that no command has a part in -/

/-- A request that `Resolve` refuses (R104, R311, R314, R315): the transport is checked first (R321); nothing is
written. -/
def State.rejectRequest (e : ErrorCode) (s : State) : State :=
  s.raise (failureOf s.seq.req) (if s.transportOpen then e else .notOpen)

/-- A cancel taken at a boundary (R319; DEDUCED, log entry 9). -/
def State.cancelOperation (s : State) : State := s.abandonExchange.raise (failureOf s.seq.req) .cancelled

end Sys2Proof.Machine
end

