-- ==== Sys2Proof/Machine/Session.lean ====
section
/-! DEFINITION. The Session (44_session.md), the block's host as the source describes it: each public operation is a
sequence of requests to the block. It acts when the block is idle: at a call, and after the result of each request. -/

namespace Sys2Proof.Machine

/-- What the Session does at its turn: present a request to the block, or return from the public operation. -/
inductive SessionAct where
  | present (r : Request) (s : State)
  | returned (s : State)

/-- Return a value and an error signal from the public operation (R276). -/
def State.returnCall (v : CallValue) (e : ErrorCode) (s : State) : SessionAct :=
  .returned { s with call := .idle, ret := { value := v, err := e } }

/-- Present a request and wait for its result in the given phase. -/
def State.present (r : Request) (p : CallPhase) (s : State) : SessionAct := .present r { s with call := p }

/-- `close()` on an open session (R262): the transport is closed, whatever its outcome (DEDUCED, log entry 12), and the
Session's record and the block are reset. -/
def State.closeSession (s : State) : State :=
  { s.blockReset with session := Session.reset, transportOpen := false }

/-- A hard failure of `open` (R261, R276): the session is closed again. -/
def State.failOpen (e : ErrorCode) (s : State) : SessionAct := s.closeSession.returnCall .nothing e

/-- `CHANNELS_OF_MODEL` (D30). -/
def channelsOfModel (cfg : Config) (model : Byte) : Nat := (cfg.channels.lookup model).getD cfg.channelsElse

/-- The bitmask of a relay-state result (R24). -/
def ResultValue.mask : ResultValue → Byte
  | .bitmask m => m
  | .unit | .bool _ | .voltage _ | .firmware _ | .password _ _ _ | .mode _ | .boardId _ _ | .tempRaw _
  | .tempAscii _ _ _ | .raw _ => 0

/-- The mode of a mode result (R24). -/
def ResultValue.modeRead : ResultValue → ModeReading
  | .mode m => m
  | .unit | .bool _ | .bitmask _ | .voltage _ | .firmware _ | .password _ _ _ | .boardId _ _ | .tempRaw _
  | .tempAscii _ _ _ | .raw _ => .modeUnknown

/-- The text of a password result (R24). -/
def ResultValue.text : ResultValue → Bytes
  | .password _ t _ => t
  | .unit | .bool _ | .bitmask _ | .voltage _ | .firmware _ | .mode _ | .boardId _ _ | .tempRaw _
  | .tempAscii _ _ _ | .raw _ => []

/-- The number of a voltage or firmware result (R24). -/
def ResultValue.number : ResultValue → Nat
  | .voltage v => v.toNat
  | .firmware w => w
  | .unit | .bool _ | .bitmask _ | .password _ _ _ | .mode _ | .boardId _ _ | .tempRaw _
  | .tempAscii _ _ _ | .raw _ => 0

/-- The model and version of a board-identity result (R24). -/
def ResultValue.board : ResultValue → Byte × Byte
  | .boardId model version => (model, version)
  | .unit | .bool _ | .bitmask _ | .voltage _ | .firmware _ | .password _ _ _ | .mode _ | .tempRaw _
  | .tempAscii _ _ _ | .raw _ => (0, 0)

/-- The mode reading that equals a mode a host may ask for (R175). -/
def readingOf : Mode → ModeReading
  | .latching => .latching
  | .momentary => .momentary

/-- The bitmask `setAllRelays` expects to see (R268). -/
def allMask (state : Bool) : Byte := if state then 0xFF else 0x00

/-- A relay number of the public surface (R266, R267): 1 to 8. -/
def relayInRange (n : Int) : Bool := decide (1 ≤ n) && decide (n ≤ 8)

/-- What a query operation reports of its result (R265, R266, R269, R271, R272, R273). -/
def Query.report (q : Query) (v : ResultValue) : CallValue :=
  match q with
  | .password => .text v.text
  | .relays => .relays (decodeRelays v.mask)
  | .relay n => .relay (decodeRelayBit v.mask n.toNat)
  | .mode => .mode v.modeRead
  | .voltage => .number v.number
  | .temperature =>
    match v with
    | .tempAscii neg mant frac => .temperature neg mant frac
    | .unit | .bool _ | .bitmask _ | .voltage _ | .firmware _ | .password _ _ _ | .mode _ | .boardId _ _ | .tempRaw _
    | .raw _ => .temperature false 0 0

/-- A read-once identity field (R264). -/
def State.identityField (f : Identity → Nat) (s : State) : SessionAct :=
  match s.session.identity with
  | some id => s.returnCall (.number (f id)) .none
  | none => s.returnCall .nothing .notOpen

/-- `open(portId, password)` up to its first request (R261). The port identifier is the transport's business (R6).
A malformed password only raises: what a raw host has opened or loaded stays as it was (DESIGN CHOICE, log entry 27). A
transport that does not open leaves the session and the transport closed and every field at its reset value; it is
reported without an error name (DESIGN CHOICE, log entry 14). -/
def State.callOpen (pw : Bytes) (s : State) : SessionAct :=
  if s.session.isOpen then s.returnCall .nothing .alreadyOpen
  else match encodePassword pw with
    | none => s.returnCall .nothing .invalidPassword
    | some _ =>
      if s.now.openFails then s.closeSession.returnCall .hardFailure .none
      else ({ s with transportOpen := true, curPw := pw
                     session := { s.session with isOpen := true, currentPassword := pw } } : State).present
        .synchronize .openSync

/-- `changePassword(newPassword)` up to its first request (R263). -/
def State.callChangePassword (new : Bytes) (s : State) : SessionAct :=
  if s.session.isOpen && s.session.isAuthenticated then
    match encodePassword new with
    | none => s.returnCall .nothing .invalidPassword
    | some _ => s.present (.verifyPassword s.session.currentPassword) (.changeOld new)
  else s.returnCall .nothing .notOpen

/-- A public operation begins (R260 to R274): every one but `open` and `close` requires an open session (R274). -/
def State.callStart (c : Call) (s : State) : SessionAct :=
  match c with
  | .openSession _ pw => s.callOpen pw
  | .closeSession =>
    if s.session.isOpen then s.closeSession.returnCall .nothing .none else s.returnCall .nothing .none
  | .changePassword new => s.callChangePassword new
  | .getPassword => if s.session.isOpen then s.present .getPassword (.query .password) else s.returnCall .nothing .notOpen
  | .getBoardModel => s.identityField (fun id => id.boardModel.toNat)
  | .getBoardVersion => s.identityField (fun id => id.boardVersion.toNat)
  | .getFirmwareVersion => s.identityField Identity.firmwareVersion
  | .getChannelCount => s.identityField Identity.channelCount
  | .getRelayStates =>
    if s.session.isOpen then s.present .getRelayStates (.query .relays) else s.returnCall .nothing .notOpen
  | .getRelayState n =>
    if s.session.isOpen then
      if relayInRange n then s.present .getRelayStates (.query (.relay n))
      else s.returnCall .nothing .invalidRelayNumber
    else s.returnCall .nothing .notOpen
  | .setRelay n state =>
    if s.session.isOpen then
      if relayInRange n then s.present (.setRelay n state) (.relaySet n state)
      else s.returnCall .nothing .invalidRelayNumber
    else s.returnCall .nothing .notOpen
  | .setAllRelays state =>
    if s.session.isOpen then s.present (.setAllRelays state) (.allSet state) else s.returnCall .nothing .notOpen
  | .getOperatingMode => if s.session.isOpen then s.present .getMode (.query .mode) else s.returnCall .nothing .notOpen
  | .setOperatingMode m =>
    if s.session.isOpen then s.present .getMode (.modeRead m 0) else s.returnCall .nothing .notOpen
  | .getVoltage => if s.session.isOpen then s.present .getVoltage (.query .voltage) else s.returnCall .nothing .notOpen
  | .getTemperature =>
    if s.session.isOpen then s.present .getTemperatureAscii (.query .temperature) else s.returnCall .nothing .notOpen

/-- The end of `open` (R261): the identity fields are filled once and the session is authenticated. -/
def State.openDone (model version : Byte) (fw : Nat) (s : State) : SessionAct :=
  ({ s with session := { s.session with
      isAuthenticated := true
      identity := some { boardModel := model, boardVersion := version, firmwareVersion := fw,
                         channelCount := channelsOfModel s.cfg model } } } : State).returnCall .nothing .none

/-- A public operation goes on after the result of its request (44_session.md, the pseudocode of each operation). Two
points are the model's choice: when both identity queries of `open` fail, it reports the error of the first, GetBoardId's
(R261, R354, D41; DESIGN CHOICE, log entry 26); and `changePassword` adopts the new password in `cur_pw` when its own
requester is idle, even if a parked one is busy (R84, R340; DESIGN CHOICE, log entry 24). -/
def State.callResume (s : State) : SessionAct :=
  let q := s.seq.result
  match s.call with
  | .idle => .returned s
  | .openSync =>
    if q.err = .syncFailed ∨ q.value = .bool false then s.failOpen .authenticationFailed
    else s.present .getBoardId .openBoard
  | .openBoard => s.present .getFirmwareVersion (.openFirmware q)
  | .openFirmware id =>
    if id.ok then
      if q.ok then s.openDone id.value.board.1 id.value.board.2 q.value.number else s.failOpen q.err
    else s.failOpen id.err
  | .changeOld new =>
    if q.ok ∧ q.value ≠ .bool false then s.present (.setPassword new) (.changeSet new)
    else s.returnCall (.success false) q.err
  | .changeSet new => s.present (.verifyPassword new) (.changeNew new)
  | .changeNew new =>
    if q.ok ∧ q.value = .bool true then
      ({ s with curPw := new, session := { s.session with currentPassword := new } } : State).returnCall
        (.success true) .none
    else s.returnCall (.success false) q.err
  | .relaySet n state => s.present .getRelayStates (.relayConfirm n state)
  | .relayConfirm n state =>
    if q.ok then s.returnCall (.success (decodeRelayBit q.value.mask n.toNat == state)) .none
    else s.returnCall (.success false) q.err
  | .allSet state => s.present .getRelayStates (.allConfirm state)
  | .allConfirm state =>
    if q.ok then s.returnCall (.success (q.value.mask == allMask state)) .none
    else s.returnCall (.success false) q.err
  | .modeRead m sends =>
    if q.ok then
      if q.value.modeRead = readingOf m then s.returnCall (.success true) .none
      else if sends = Config.modeMaxAttempts then s.returnCall (.success false) .none
      else s.present (.setMode m) (.modeSent m (sends + 1))
    else s.returnCall (.success false) q.err
  | .modeSent m sends => s.present .getMode (.modeRead m sends)
  | .query k => s.returnCall (k.report q.value) q.err

end Sys2Proof.Machine
end

