-- ==== Sys2Proof/Machine/Control.lean ====
section
/-! DEFINITION. What a step does before a command's meaning is called: the outside is sampled; reset and a recorded fault
come first; then the requester whose turn it is goes on with its operation, or, when idle, takes the host's move. The
answer is either the command whose next step it is, with the state to run it in, or the whole outcome. -/

namespace Sys2Proof.Machine

/-- The choice a step makes: run a command's meaning, or what it answers without one. -/
inductive Plan where
  | run (i : Instr) (s : State)
  | outcome (o : Host.Outcome State Fault Refusal)

/-- A step that ends in a next state. -/
def Plan.next (s : State) : Plan := .outcome (.next s)

/-- The command the operation in progress is for: its request is resolved at the start (R99, R231); afterwards the
command registers hold it. -/
def State.currentCommand (s : State) : Except ErrorCode (Option Instr) :=
  if s.seq.opState = .firstTry ∧ s.seq.rsmState = .idle then resolve s.seq.req
  else if s.seq.req = .synchronize then .ok none
  else .ok (some s.seq.cmd)

/-- The next step of the operation in progress (R26): a refused request ends, a bare resynchronisation goes on, a
command's meaning runs. -/
def State.operation (s : State) : Plan :=
  match s.currentCommand with
  | .error e => .next (s.rejectRequest e)
  | .ok none => .next s.syncStep
  | .ok (some i) => .run i s

/-- A busy requester's step: a cancel is remembered and, at a boundary, taken (R319); otherwise the operation goes on. A
request at the port has no effect while busy (R41), nor has a password, a transport change or a public operation (DESIGN
CHOICE, log entry 13). -/
def State.busyStep (s : State) : Plan :=
  let s' := s.noteCancel
  if s'.seq.cancelPending && s'.seq.atBoundary then .next s'.cancelOperation else s'.operation

/-- A request is accepted and its operation takes its first step, in one step of the machine (R41; DEDUCED, log entry
7). -/
def State.startRequest (r : Request) (s : State) : Plan := (s.accept r).operation

/-- The Session's act: its request goes to the command port. -/
def SessionAct.plan : SessionAct → Plan
  | .present r s => s.startRequest r
  | .returned s => .next s

/-- A raw host may load `cur_pw` or change the transport only when no session owns them (R35, R65; DEDUCED, log entry 13)
and no requester is busy (R42, R84): with several requesters, none of them (DESIGN CHOICE, log entry 24). -/
def State.hostMayConfigure (s : State) : Bool := s.quiet && !s.session.isOpen

/-- A public operation is called (R260). `open` on an open session fails fast whoever else is active, in the middle of an
`open` too (R261, R277, R317). Beside an `open` nothing else starts, and `close` and the opening of a closed session wait
for the others (R277): such a move has no effect (DESIGN CHOICE, log entry 13). -/
def State.callMove (c : Call) (s : State) : Plan :=
  match c with
  | .openSession _ _ => if s.session.isOpen || s.quiet then (s.callStart c).plan else .next s
  | .closeSession => if s.quiet then (s.callStart c).plan else .next s
  | .changePassword _ | .getPassword | .getBoardModel | .getBoardVersion | .getFirmwareVersion | .getChannelCount
  | .getRelayStates | .getRelayState _ | .setRelay _ _ | .setAllRelays _ | .getOperatingMode | .setOperatingMode _
  | .getVoltage | .getTemperature => if s.openingElsewhere then .next s else (s.callStart c).plan

/-- An idle requester takes the host's move (R40 to R44). -/
def State.idleStep (s : State) : Plan :=
  match s.now.move with
  | .nothing | .cancel | .reset | .turn _ => .next s
  | .request r => if s.openingElsewhere then .next s else s.startRequest r
  | .loadPassword pw => .next (if s.hostMayConfigure then { s with curPw := pw } else s)
  | .setTransport isOpen => .next (if s.hostMayConfigure then { s with transportOpen := isOpen } else s)
  | .call c => s.callMove c

/-- The requester whose turn it is takes its step. -/
def State.threadStep (s : State) : Plan :=
  if s.seq.busy then s.busyStep
  else if s.call = .idle then s.idleStep
  else s.callResume.plan

/-- A step up to the command's meaning. Reset works at any time (R351); a faulted block takes no other step (R316); a
turn changes nothing but who goes on (R340). -/
def State.plan (s0 : State) : Plan :=
  let s := s0.sample
  match s.now.move, s.fault with
  | .reset, _ => .next s.powerOn
  | _, some f => .outcome (.fault f)
  | .turn k, none => .next (s.switchTo k)
  | _, none => s.threadStep

/-- `s` with a command waiting at the command port (log entry 5): the transport open, and the next input the request that
stands for the command. -/
def State.placeCommand (i : Instr) (s : State) : State :=
  { s with transportOpen := true
           inputs := { Input.quiet with move := .request (requestOf i) } :: s.inputs }

/-- `s` with the command a word encodes waiting at the command port; a word that is no command leaves the port empty. -/
def State.placeWord (nbits w : Nat) (s : State) : State :=
  match decodeWordUnder s.cfg nbits w with
  | some i => s.placeCommand i
  | none => { s with inputs := Input.quiet :: s.inputs }

end Sys2Proof.Machine
end

