-- ==== Sys2Proof/Machine/Identity.lean ====
section
/-! DEFINITION. Identity and password commands (40_codec_commands.md section 2). -/

namespace Sys2Proof.Machine

/-- `GET_BOARD_ID` (R121): two bytes, layout `RI`, decoded by R180. -/
def execGetBoardId (s : State) : Host.Outcome State Fault Refusal :=
  operate .getBoardId
    { reply := .fixed 2
      timeoutMs := s.cfg.timeoutDefaultMs
      decode := fun bs => decodeBoardId s.cfg (replyByte bs 0) (replyByte bs 1)
      failure := .boardId 0 0 } s

/-- `GET_PASSWORD` (R122): three bytes, layout `RP`, decoded by R173. `cur_pw` is not written. -/
def execGetPassword (s : State) : Host.Outcome State Fault Refusal :=
  operate .getPassword
    { reply := .fixed 3
      timeoutMs := s.cfg.timeoutDefaultMs
      decode := fun bs => decodePassword (replyByte bs 0) (replyByte bs 1) (replyByte bs 2)
      failure := .password 0 [0x30, 0x30, 0x30, 0x30, 0x30, 0x30] true } s

/-- `VERIFY_PASSWORD` (R123): one byte, layout `RB`, decoded by R171. Issued by the host it does not write the auth latch (R239). -/
def execVerifyPassword (a b c : Byte) (s : State) : Host.Outcome State Fault Refusal :=
  operate (.verifyPassword a b c)
    { reply := .fixed 1
      timeoutMs := s.cfg.timeoutDefaultMs
      decode := fun bs => .bool (decodeBool s.cfg (replyByte bs 0))
      failure := .bool false } s

/-- `SET_PASSWORD` (R124: no reply. `cur_pw` is not changed). -/
def execSetPassword (a b c : Byte) (s : State) : Host.Outcome State Fault Refusal :=
  operate (.setPassword a b c) { reply := .none, timeoutMs := s.cfg.timeoutDefaultMs, decode := fun _ => .unit, failure := .unit } s

end Sys2Proof.Machine
end

