-- ==== Sys2Proof/Machine/ModeCommands.lean ====
section
/-! DEFINITION. Mode commands (40_codec_commands.md section 3). -/

namespace Sys2Proof.Machine

/-- `GET_MODE` (R125): one byte, layout `RB`, compared with the set-mode opcodes (R175). -/
def execGetMode (s : State) : Host.Outcome State Fault Refusal :=
  operate .getMode
    { reply := .fixed 1
      timeoutMs := s.cfg.timeoutDefaultMs
      decode := fun bs => .mode (decodeMode s.cfg (replyByte bs 0))
      failure := .mode .modeUnknown } s

/-- `SET_MODE_LATCHING` (R126: no reply). -/
def execSetModeLatching (s : State) : Host.Outcome State Fault Refusal :=
  operate .setModeLatching { reply := .none, timeoutMs := s.cfg.timeoutDefaultMs, decode := fun _ => .unit, failure := .unit } s

/-- `SET_MODE_MOMENTARY` (R127: no reply). -/
def execSetModeMomentary (s : State) : Host.Outcome State Fault Refusal :=
  operate .setModeMomentary { reply := .none, timeoutMs := s.cfg.timeoutDefaultMs, decode := fun _ => .unit, failure := .unit } s

end Sys2Proof.Machine
end

