-- ==== Sys2Proof/Machine/Queries.lean ====
section
/-! DEFINITION. Status, firmware and relay-state queries (40_codec_commands.md section 4). -/

namespace Sys2Proof.Machine

/-- `GET_STATUS` (R128): `RLEN_STATUS` bytes, layout `RS`, uninterpreted (R181). -/
def execGetStatus (s : State) : Host.Outcome State Fault Refusal :=
  operate .getStatus
    { reply := .fixed s.cfg.rlenStatus
      timeoutMs := s.cfg.timeoutDefaultMs
      decode := fun bs => .raw (bs.take s.cfg.rlenStatus)
      failure := .raw [] } s

/-- `GET_FIRMWARE_VERSION` (R129): two bytes, layout `RW`, little-endian (R177). -/
def execGetFirmwareVersion (s : State) : Host.Outcome State Fault Refusal :=
  operate .getFirmwareVersion
    { reply := .fixed 2
      timeoutMs := s.cfg.timeoutDefaultMs
      decode := fun bs => .firmware (decodeFirmwareVersion (replyByte bs 0) (replyByte bs 1))
      failure := .firmware 0 } s

/-- `GET_RELAY_STATES` (R130): one byte, layout `RB`, the bitmask (R174). -/
def execGetRelayStates (s : State) : Host.Outcome State Fault Refusal :=
  operate .getRelayStates
    { reply := .fixed 1
      timeoutMs := s.cfg.timeoutDefaultMs
      decode := fun bs => .bitmask (replyByte bs 0)
      failure := .bitmask 0x00 } s

end Sys2Proof.Machine
end

