-- ==== Sys2Proof/Machine/RelayHigh.lean ====
section
/-! DEFINITION. Per-relay set-high commands (40_codec_commands.md section 5, R155): no reply; what the device does is not the block's step. -/

namespace Sys2Proof.Machine

/-- `RELAY1_HIGH` (R131). -/
def execRelay1High (s : State) : Host.Outcome State Fault Refusal :=
  operate .relay1High { reply := .none, timeoutMs := s.cfg.timeoutDefaultMs, decode := fun _ => .unit, failure := .unit } s

/-- `RELAY2_HIGH` (R132). -/
def execRelay2High (s : State) : Host.Outcome State Fault Refusal :=
  operate .relay2High { reply := .none, timeoutMs := s.cfg.timeoutDefaultMs, decode := fun _ => .unit, failure := .unit } s

/-- `RELAY3_HIGH` (R133). -/
def execRelay3High (s : State) : Host.Outcome State Fault Refusal :=
  operate .relay3High { reply := .none, timeoutMs := s.cfg.timeoutDefaultMs, decode := fun _ => .unit, failure := .unit } s

/-- `RELAY4_HIGH` (R134). -/
def execRelay4High (s : State) : Host.Outcome State Fault Refusal :=
  operate .relay4High { reply := .none, timeoutMs := s.cfg.timeoutDefaultMs, decode := fun _ => .unit, failure := .unit } s

/-- `RELAY5_HIGH` (R135). -/
def execRelay5High (s : State) : Host.Outcome State Fault Refusal :=
  operate .relay5High { reply := .none, timeoutMs := s.cfg.timeoutDefaultMs, decode := fun _ => .unit, failure := .unit } s

/-- `RELAY6_HIGH` (R136). -/
def execRelay6High (s : State) : Host.Outcome State Fault Refusal :=
  operate .relay6High { reply := .none, timeoutMs := s.cfg.timeoutDefaultMs, decode := fun _ => .unit, failure := .unit } s

/-- `RELAY7_HIGH` (R137). -/
def execRelay7High (s : State) : Host.Outcome State Fault Refusal :=
  operate .relay7High { reply := .none, timeoutMs := s.cfg.timeoutDefaultMs, decode := fun _ => .unit, failure := .unit } s

/-- `RELAY8_HIGH` (R138). -/
def execRelay8High (s : State) : Host.Outcome State Fault Refusal :=
  operate .relay8High { reply := .none, timeoutMs := s.cfg.timeoutDefaultMs, decode := fun _ => .unit, failure := .unit } s

end Sys2Proof.Machine
end

