-- ==== Sys2Proof/Machine/RelayLow.lean ====
section
/-! DEFINITION. Per-relay set-low commands (40_codec_commands.md section 6, R156): no reply; what the device does is not the block's step. -/

namespace Sys2Proof.Machine

/-- `RELAY1_LOW` (R139). -/
def execRelay1Low (s : State) : Host.Outcome State Fault Refusal :=
  operate .relay1Low { reply := .none, timeoutMs := s.cfg.timeoutDefaultMs, decode := fun _ => .unit, failure := .unit } s

/-- `RELAY2_LOW` (R140). -/
def execRelay2Low (s : State) : Host.Outcome State Fault Refusal :=
  operate .relay2Low { reply := .none, timeoutMs := s.cfg.timeoutDefaultMs, decode := fun _ => .unit, failure := .unit } s

/-- `RELAY3_LOW` (R141). -/
def execRelay3Low (s : State) : Host.Outcome State Fault Refusal :=
  operate .relay3Low { reply := .none, timeoutMs := s.cfg.timeoutDefaultMs, decode := fun _ => .unit, failure := .unit } s

/-- `RELAY4_LOW` (R142). -/
def execRelay4Low (s : State) : Host.Outcome State Fault Refusal :=
  operate .relay4Low { reply := .none, timeoutMs := s.cfg.timeoutDefaultMs, decode := fun _ => .unit, failure := .unit } s

/-- `RELAY5_LOW` (R143). -/
def execRelay5Low (s : State) : Host.Outcome State Fault Refusal :=
  operate .relay5Low { reply := .none, timeoutMs := s.cfg.timeoutDefaultMs, decode := fun _ => .unit, failure := .unit } s

/-- `RELAY6_LOW` (R144). -/
def execRelay6Low (s : State) : Host.Outcome State Fault Refusal :=
  operate .relay6Low { reply := .none, timeoutMs := s.cfg.timeoutDefaultMs, decode := fun _ => .unit, failure := .unit } s

/-- `RELAY7_LOW` (R145). -/
def execRelay7Low (s : State) : Host.Outcome State Fault Refusal :=
  operate .relay7Low { reply := .none, timeoutMs := s.cfg.timeoutDefaultMs, decode := fun _ => .unit, failure := .unit } s

/-- `RELAY8_LOW` (R146). -/
def execRelay8Low (s : State) : Host.Outcome State Fault Refusal :=
  operate .relay8Low { reply := .none, timeoutMs := s.cfg.timeoutDefaultMs, decode := fun _ => .unit, failure := .unit } s

end Sys2Proof.Machine
end

