-- ==== Sys2Proof/Machine/SetAll.lean ====
section
/-! DEFINITION. Set-all commands (40_codec_commands.md section 7). -/

namespace Sys2Proof.Machine

/-- `ALL_HIGH` (R147: no reply). -/
def execAllHigh (s : State) : Host.Outcome State Fault Refusal :=
  operate .allHigh { reply := .none, timeoutMs := s.cfg.timeoutDefaultMs, decode := fun _ => .unit, failure := .unit } s

/-- `ALL_LOW` (R148: no reply). -/
def execAllLow (s : State) : Host.Outcome State Fault Refusal :=
  operate .allLow { reply := .none, timeoutMs := s.cfg.timeoutDefaultMs, decode := fun _ => .unit, failure := .unit } s

end Sys2Proof.Machine
end

