-- ==== Sys2Proof/Machine/Telemetry.lean ====
section
/-! DEFINITION. Telemetry commands (40_codec_commands.md section 8). -/

namespace Sys2Proof.Machine

/-- `GET_VOLTAGE` (R149): one byte, layout `RB` (R176). -/
def execGetVoltage (s : State) : Host.Outcome State Fault Refusal :=
  operate .getVoltage
    { reply := .fixed 1
      timeoutMs := s.cfg.timeoutDefaultMs
      decode := fun bs => .voltage (decodeVoltage (replyByte bs 0))
      failure := .voltage 0 } s

/-- `GET_TEMP_RAW` (R150): two bytes, layout `RT`, weight 255 (R178), the temperature timeout (R298). -/
def execGetTempRaw (s : State) : Host.Outcome State Fault Refusal :=
  operate .getTempRaw
    { reply := .fixed 2
      timeoutMs := s.cfg.timeoutTempMs
      decode := fun bs => .tempRaw (decodeTempRaw (replyByte bs 0) (replyByte bs 1))
      failure := .tempRaw 0 } s

/-- `GET_TEMP_ASCII` (R151): read until idle, layout `RA`, decoded by R179, the temperature timeout (R298). -/
def execGetTempAscii (s : State) : Host.Outcome State Fault Refusal :=
  operate .getTempAscii
    { reply := .untilIdle
      timeoutMs := s.cfg.timeoutTempMs
      decode := fun bs => decodeTempAscii bs
      failure := .tempAscii false 0 0 } s

end Sys2Proof.Machine
end

