-- ==== Sys2Proof/Machine/Dispatch.lean ====
section
/-! DEFINITION. One arm per command (30_encoding.md R96). -/

namespace Sys2Proof.Machine

/-- The next step of the operation of command `i` (R152, R231). -/
def exec (i : Instr) (s : State) : Host.Outcome State Fault Refusal :=
  match i with
  | .getBoardId => Sys2Proof.Machine.execGetBoardId s
  | .getPassword => Sys2Proof.Machine.execGetPassword s
  | .verifyPassword a b c => Sys2Proof.Machine.execVerifyPassword a b c s
  | .setPassword a b c => Sys2Proof.Machine.execSetPassword a b c s
  | .getMode => Sys2Proof.Machine.execGetMode s
  | .setModeLatching => Sys2Proof.Machine.execSetModeLatching s
  | .setModeMomentary => Sys2Proof.Machine.execSetModeMomentary s
  | .getStatus => Sys2Proof.Machine.execGetStatus s
  | .getFirmwareVersion => Sys2Proof.Machine.execGetFirmwareVersion s
  | .getRelayStates => Sys2Proof.Machine.execGetRelayStates s
  | .relay1High => Sys2Proof.Machine.execRelay1High s
  | .relay2High => Sys2Proof.Machine.execRelay2High s
  | .relay3High => Sys2Proof.Machine.execRelay3High s
  | .relay4High => Sys2Proof.Machine.execRelay4High s
  | .relay5High => Sys2Proof.Machine.execRelay5High s
  | .relay6High => Sys2Proof.Machine.execRelay6High s
  | .relay7High => Sys2Proof.Machine.execRelay7High s
  | .relay8High => Sys2Proof.Machine.execRelay8High s
  | .relay1Low => Sys2Proof.Machine.execRelay1Low s
  | .relay2Low => Sys2Proof.Machine.execRelay2Low s
  | .relay3Low => Sys2Proof.Machine.execRelay3Low s
  | .relay4Low => Sys2Proof.Machine.execRelay4Low s
  | .relay5Low => Sys2Proof.Machine.execRelay5Low s
  | .relay6Low => Sys2Proof.Machine.execRelay6Low s
  | .relay7Low => Sys2Proof.Machine.execRelay7Low s
  | .relay8Low => Sys2Proof.Machine.execRelay8Low s
  | .allHigh => Sys2Proof.Machine.execAllHigh s
  | .allLow => Sys2Proof.Machine.execAllLow s
  | .getVoltage => Sys2Proof.Machine.execGetVoltage s
  | .getTempRaw => Sys2Proof.Machine.execGetTempRaw s
  | .getTempAscii => Sys2Proof.Machine.execGetTempAscii s

end Sys2Proof.Machine
end

