-- ==== Sys2Proof/Machine/Step.lean ====
section
/-! DEFINITION. One step of the machine, and where a program's next command is placed. -/

namespace Sys2Proof.Machine

/-- One step: what `State.plan` chooses, with the command's meaning taken from `exec` (10_state.md R26). -/
def step (s : State) : Host.Outcome State Fault Refusal :=
  match s.plan with
  | .run i s' => exec i s'
  | .outcome o => o

/-- `s` with the command of a table word placed where the next step takes it from (log entry 5). -/
def State.withFetchWord (s : State) (nbits w : Nat) : State := s.placeWord nbits w

end Sys2Proof.Machine
end

