-- ==== Sys2Proof/Safety.lean ====
section
/-! DEFINITION. What counts as a safe state and what the spec's tables say, in the terms claims use: the legal
combinations of the control state (10_state.md R27), the one exchange under the gate (45_gate_and_exchange.md R290,
70_reset_and_hazards.md R366), the buffer's capacity (R23), the Session's promises (R35, R275, R277); and the reply,
timeout, decoder and default tables (R97, R298, R170, R186), written here once more from the spec so that a claim can hold
the meanings against them. -/

namespace Sys2Proof.Machine

/-! ## The control state -/

/-- A legal sequencer. The first three clauses are R27's. The rest say what the steps between them need: `op_state` rests
in no `Done` (R231, R246; log entry 7), an attempt is counted before it is made (R236; log entry 25), the round trips'
payload, kept in `syncPw`, is a password value (R236, R237; log entry 17), a sleep leaves room for one more attempt (R240,
R241), a read inside the supervisor is an attempt's (R236), a bare resynchronisation reads inside the supervisor only
(R242), the idle clock counts whole polls (R204), the buffer is empty outside a read (R201, R209), and a satisfied read has
a byte and the count it was started with (R205, R207, R170). -/
structure Sequencer.Legal (q : Sequencer) : Prop where
  idleRests : q.opState = .idle → q.supState = .idle ∧ q.rsmState = .idle
  supOnlyInResync : q.supState ≠ .idle → q.opState = .resync
  attemptsBounded : q.attemptCnt ≤ Config.syncMaxAttempts
  neverDone : q.opState ≠ .done
  attemptCounted : q.supState ≠ .idle → 1 ≤ q.attemptCnt
  payloadInRange : q.supState ≠ .idle → q.verification.wf = true
  sleepRoom : q.supState = .sleeping → q.attemptCnt < Config.syncMaxAttempts
  readInAttempt : q.opState = .resync → q.rsmState ≠ .idle → q.supState = .attempt
  bareRead : q.req = .synchronize → q.rsmState ≠ .idle → q.opState = .resync
  wholePolls : q.idleMs % Config.pollMs = 0
  bufferEmpty : q.rsmState = .idle → q.acc = []
  fullRead : q.rsmState = .satisfied → 1 ≤ q.acc.length ∧ q.rsmExpected ≤ q.acc.length

/-- How many requesters are in an exchange. -/
def State.holders (s : State) : Nat := s.threads.countP (fun t => t.seq.inExchange)

/-- The invariant, of a faulted machine too: every requester's control state is legal, and the gate is held exactly when
one requester is in an exchange, never two (R27, R290, R292). -/
structure State.Inv (s : State) : Prop where
  legal : ∀ t ∈ s.threads, t.seq.Legal
  gate : s.holders = if s.gateHeld then 1 else 0

/-- No response buffer exceeds `RESP_CAP` (R20, R23). -/
def State.WithinCapacity (s : State) : Prop :=
  ∀ cap, s.cfg.respCap = some cap → ∀ t ∈ s.threads, t.seq.acc.length ≤ cap

/-! ## The Session -/

/-- A requester in the middle of a public operation. -/
def Thread.calling (t : Thread) : Bool := decide (t.call ≠ .idle)

/-- The Session's promises: a closed session is blank (R262, R276), an open one has an open transport and one password
(R35), `isAuthenticated` goes with the identity fields (R35, R275) and with `isOpen` once `open` is over (R275), public
operations run only on an open session (R274), and beside an `open` no other runs (R277). -/
structure State.SessionInv (s : State) : Prop where
  closedBlank : s.session.isOpen = false → s.session = Session.reset
  openTransport : s.session.isOpen = true → s.transportOpen = true
  onePassword : s.session.isOpen = true → s.curPw = s.session.currentPassword
  authIdentity : s.session.isAuthenticated = s.session.identity.isSome
  openAuth : s.session.isOpen = true → s.threads.any (fun t => t.call.opening) = false → s.session.isAuthenticated = true
  callsOpen : s.threads.any Thread.calling = true → s.session.isOpen = true
  openAlone : s.threads.any (fun t => t.call.opening) = true → s.threads.countP Thread.calling = 1

/-! ## The spec's tables -/

/-- The reply table `REPLY` (R97). -/
def specReply (cfg : Config) : Instr → ReplyKind
  | .getBoardId => .fixed 2
  | .getPassword => .fixed 3
  | .verifyPassword _ _ _ => .fixed 1
  | .setPassword _ _ _ => .none
  | .getMode => .fixed 1
  | .setModeLatching | .setModeMomentary => .none
  | .getStatus => .fixed cfg.rlenStatus
  | .getFirmwareVersion => .fixed 2
  | .getRelayStates => .fixed 1
  | .relay1High | .relay2High | .relay3High | .relay4High | .relay5High | .relay6High | .relay7High | .relay8High
  | .relay1Low | .relay2Low | .relay3Low | .relay4Low | .relay5Low | .relay6Low | .relay7Low | .relay8Low
  | .allHigh | .allLow => .none
  | .getVoltage => .fixed 1
  | .getTempRaw => .fixed 2
  | .getTempAscii => .untilIdle

/-- `TimeoutOf(cmd)` (R298), for the commands with a reply. -/
def specTimeout (cfg : Config) (i : Instr) : Nat :=
  if i = .getTempAscii ∨ i = .getTempRaw then cfg.timeoutTempMs else cfg.timeoutDefaultMs

/-- `Decode(cmd, bytes)` (R170). -/
def specDecode (cfg : Config) (bs : Bytes) : Instr → ResultValue
  | .getBoardId => decodeBoardId cfg (bs.getD 0 0) (bs.getD 1 0)
  | .getPassword => decodePassword (bs.getD 0 0) (bs.getD 1 0) (bs.getD 2 0)
  | .verifyPassword _ _ _ => .bool (decodeBool cfg (bs.getD 0 0))
  | .getMode => .mode (decodeMode cfg (bs.getD 0 0))
  | .getStatus => .raw (bs.take cfg.rlenStatus)
  | .getFirmwareVersion => .firmware ((bs.getD 0 0).toNat + 256 * (bs.getD 1 0).toNat)
  | .getRelayStates => .bitmask (bs.getD 0 0)
  | .getVoltage => .voltage (bs.getD 0 0)
  | .getTempRaw => .tempRaw (255 * (bs.getD 0 0).toNat + (bs.getD 1 0).toNat)
  | .getTempAscii => decodeTempAscii bs
  | .setPassword _ _ _ | .setModeLatching | .setModeMomentary
  | .relay1High | .relay2High | .relay3High | .relay4High | .relay5High | .relay6High | .relay7High | .relay8High
  | .relay1Low | .relay2Low | .relay3Low | .relay4Low | .relay5Low | .relay6Low | .relay7Low | .relay8Low
  | .allHigh | .allLow => .unit

/-- `Default(cmd)` (R186). -/
def specDefault : Instr → ResultValue
  | .getBoardId => .boardId 0 0
  | .getPassword => .password 0 [0x30, 0x30, 0x30, 0x30, 0x30, 0x30] true
  | .verifyPassword _ _ _ => .bool false
  | .getMode => .mode .modeUnknown
  | .getStatus => .raw []
  | .getFirmwareVersion => .firmware 0
  | .getRelayStates => .bitmask 0x00
  | .getVoltage => .voltage 0
  | .getTempRaw => .tempRaw 0
  | .getTempAscii => .tempAscii false 0 0
  | .setPassword _ _ _ | .setModeLatching | .setModeMomentary
  | .relay1High | .relay2High | .relay3High | .relay4High | .relay5High | .relay6High | .relay7High | .relay8High
  | .relay1Low | .relay2Low | .relay3Low | .relay4Low | .relay5Low | .relay6Low | .relay7Low | .relay8Low
  | .allHigh | .allLow => .unit

/-- The commands with a reply (R97). -/
def hasReply (cfg : Config) (i : Instr) : Bool := decide (specReply cfg i ≠ .none)

/-- `K(t) = (t div POLL_MS) + 1` (R211). -/
def pollsOf (t : Nat) : Nat := t / Config.pollMs + 1

end Sys2Proof.Machine
end

