-- ==== Sys2Proof/Certificates/Slice0/Obligations.lean ====
section
/-! DEFINITION. The statements for the provers. Each formalises the rules its docstring names. -/

open Sys2Proof Sys2Proof.Machine

/-! ## Encoding and decoding -/

/-- Log entry 6 (the decoder is the model's): every encoded command decodes to itself, under every injective opcode table,
whatever follows it. -/
def Obligations.DecodeOfEncode : Prop :=
  ∀ (cfg : Config) (i : Instr) (rest : Bytes), cfg.opcodesDistinct = true → i.wf = true →
    decode cfg (encode cfg i ++ rest) = .ok (i, rest)

/-- Log entry 6: whatever decodes is a well-formed command's encoding followed by the rest; every byte sequence that is
not is refused. -/
def Obligations.DecodeOnlyEncodings : Prop :=
  ∀ (cfg : Config) (bs rest : Bytes) (i : Instr), decode cfg bs = .ok (i, rest) →
    i.wf = true ∧ bs = encode cfg i ++ rest

/-- R120, R91, R92: `Encode` is the opcode followed by the payload, one byte long for the commands of format F0 and four
for the two of format F3, whose payload is the password value, least significant byte first. -/
def Obligations.EncodeIsOpcodeThenPayload : Prop :=
  (∀ (cfg : Config) (i : Instr), encode cfg i = [cfg.opcodeOf i] ++ i.payload) ∧
  (∀ (cfg : Config) (a b c : Byte),
    encode cfg (.verifyPassword a b c) = [cfg.opcodeOf (.verifyPassword a b c), a, b, c] ∧
    encode cfg (.setPassword a b c) = [cfg.opcodeOf (.setPassword a b c), a, b, c]) ∧
  (∀ (cfg : Config) (i : Instr), (∀ a b c, i ≠ .verifyPassword a b c) → (∀ a b c, i ≠ .setPassword a b c) →
    (encode cfg i).length = 1)

/-- Words written out from R91, R92 under any injective opcode table (R98; no byte of the placeholder table is used): the
opcode byte in bits 7:0, the password value in bits 31:8, least significant byte first; a word with too large a value or
too few bytes, and an empty one, are refused (log entry 6). -/
def Obligations.WordsDecodeRight : Prop :=
  ∀ cfg : Config, cfg.opcodesDistinct = true →
    decodeWordUnder cfg 8 cfg.opc[0].toNat = some .getBoardId ∧
    decodeWordUnder cfg 32 (cfg.opc[2].toNat + 256 * 0x01E240) = some (.verifyPassword 0x40 0xE2 0x01) ∧
    decodeWordUnder cfg 32 (cfg.opc[3].toNat + 256 * 111) = some (.setPassword 0x6F 0x00 0x00) ∧
    decodeWordUnder cfg 32 (cfg.opc[3].toNat + 256 * 1000000) = none ∧
    decodeWordUnder cfg 8 cfg.opc[5].toNat = some .setModeLatching ∧
    decodeWordUnder cfg 8 cfg.opc[12].toNat = some .relay3High ∧
    decodeWordUnder cfg 8 cfg.opc[25].toNat = some .relay8Low ∧
    decodeWordUnder cfg 8 cfg.opc[26].toNat = some .allHigh ∧
    decodeWordUnder cfg 8 cfg.opc[30].toNat = some .getTempAscii ∧
    decode cfg [cfg.opc[2], 0x40, 0xE2] = .error .shortPayload ∧
    decode cfg [] = .error .empty

/-- R41, R99, R231 (log entries 5 and 6): when the word at the command port decodes to a command, the next step of an idle
block is that command's meaning, run in the state that has sampled the input and accepted the request that stands for the
command. (An idle block's read is at rest: R27, `StepKeepsInv`.) -/
def Obligations.StepRunsPlacedWord : Prop :=
  ∀ (s : State) (nbits w : Nat) (i : Instr),
    s.fault = none → s.seq.busy = false → s.seq.rsmState = .idle → s.call = .idle → s.openingElsewhere = false →
    decodeWordUnder s.cfg nbits w = some i →
    step (s.withFetchWord nbits w) = exec i ((s.withFetchWord nbits w).sample.accept (requestOf i))

/-- R26, R231: a busy requester's step, with no cancel pending or asserted, no reset and no turn, is the meaning of the
command in its command register, in the state that has sampled the input. -/
def Obligations.StepContinuesCommand : Prop :=
  ∀ (s : State), s.fault = none → s.seq.busy = true → s.seq.cancelPending = false → s.cfg.hasCancel = false →
    s.nextInput.move ≠ .reset → (∀ k, s.nextInput.move ≠ .turn k) → s.seq.req ≠ .synchronize →
    ¬ (s.seq.opState = .firstTry ∧ s.seq.rsmState = .idle) →
    step s = exec s.seq.cmd s.sample

/-! ## Requests and operands -/

/-- Every byte is an ASCII decimal digit (R101, R179). -/
def AsciiDigits (ds : Bytes) : Prop := ∀ d ∈ ds, 0x30 ≤ d.toNat ∧ d.toNat ≤ 0x39

/-- The number that digits spell, the first the most significant: each counts with the power of ten of its place. -/
def spelled : Bytes → Nat
  | [] => 0
  | d :: ds => (d.toNat - 0x30) * 10 ^ ds.length + spelled ds

/-- R101: `encodePassword` of six ASCII digits is the three low-order bytes of the value they spell, the first digit the
most significant; any other sequence is refused, never truncated or padded. -/
def Obligations.EncodePasswordRule : Prop :=
  (∀ (d0 d1 d2 d3 d4 d5 : Byte), (∀ d ∈ [d0, d1, d2, d3, d4, d5], 0x30 ≤ d.toNat ∧ d.toNat ≤ 0x39) →
    ∃ v : Nat, v = (d0.toNat - 0x30) * 100000 + (d1.toNat - 0x30) * 10000 + (d2.toNat - 0x30) * 1000 +
        (d3.toNat - 0x30) * 100 + (d4.toNat - 0x30) * 10 + (d5.toNat - 0x30) ∧ v ≤ 999999 ∧
      encodePassword [d0, d1, d2, d3, d4, d5] = some (byteOf (v % 256), byteOf (v / 256 % 256), byteOf (v / 65536))) ∧
  (∀ (pw : Bytes), pw.length ≠ 6 ∨ (∃ d ∈ pw, d.toNat < 0x30 ∨ 0x39 < d.toNat) → encodePassword pw = none)

/-- R182, R173, R104: decoding the encoded password gives the six digits back, in range; encoding the decoded text of a
value in range gives the three bytes back; and a value above 999999 is reported out of range, with its seven or eight digits
as its text, which `encodePassword` refuses. -/
def Obligations.PasswordRoundTrip : Prop :=
  (∀ (pw : Bytes), pw.length = 6 → AsciiDigits pw →
    ∃ a b c, encodePassword pw = some (a, b, c) ∧ decodePassword a b c = .password (spelled pw) pw true) ∧
  (∀ (a b c : Byte) (v : Nat), v = a.toNat + 256 * b.toNat + 65536 * c.toNat →
    (v ≤ 999999 → ∃ text, decodePassword a b c = .password v text true ∧ encodePassword text = some (a, b, c)) ∧
    (999999 < v → ∃ text, decodePassword a b c = .password v text false ∧ AsciiDigits text ∧ spelled text = v ∧
      text.length = (if v < 10000000 then 7 else 8) ∧ encodePassword text = none))

/-- R100, R99: the relay lookup table, and no entry outside 1 to 8. -/
def Obligations.RelayTable : Prop :=
  (∀ state : Bool,
    relayCommand 1 state = some (bif state then .relay1High else .relay1Low) ∧
    relayCommand 2 state = some (bif state then .relay2High else .relay2Low) ∧
    relayCommand 3 state = some (bif state then .relay3High else .relay3Low) ∧
    relayCommand 4 state = some (bif state then .relay4High else .relay4Low) ∧
    relayCommand 5 state = some (bif state then .relay5High else .relay5Low) ∧
    relayCommand 6 state = some (bif state then .relay6High else .relay6Low) ∧
    relayCommand 7 state = some (bif state then .relay7High else .relay7Low) ∧
    relayCommand 8 state = some (bif state then .relay8High else .relay8Low)) ∧
  (∀ (n : Int) (state : Bool), n < 1 ∨ 8 < n → resolve (.setRelay n state) = .error .invalidRelayNumber)

/-- R104, R311, R314, R315, R321: a request with a bad relay number or a bad password, presented to an idle block, ends at
once with the type's default and its error, the transport being checked first; nothing is written or read. -/
def Obligations.RefusedRequestWritesNothing : Prop :=
  ∀ (s : State) (r : Request) (e : ErrorCode),
    s.fault = none → s.seq.busy = false → s.seq.rsmState = .idle → s.call = .idle → s.openingElsewhere = false →
    s.nextInput.move = .request r → resolve r = .error e →
    ∃ t, step s = .next t ∧
      t.seq.result = { value := failureOf r, ok := false, err := if s.transportOpen then e else .notOpen } ∧
      t.seq.busy = false ∧ t.tx = s.tx ∧ t.rx = s.rx ++ s.nextInput.arr ∧ t.gateHeld = s.gateHeld ∧ t.fault = none ∧
      t.curPw = s.curPw ∧ t.seq.authValid = s.seq.authValid ∧ t.seq.authResult = s.seq.authResult ∧
      t.seq.cmd = s.seq.cmd ∧ t.seq.attemptCnt = s.seq.attemptCnt

/-! ## Response decoders -/

/-- R183: bit `n - 1` of the byte, for relays 1 to 8 and every byte; so `0xFF` has all eight on, `0x00` none, and `1 << (m - 1)`
only relay `m`. -/
def Obligations.RelayBitLaw : Prop :=
  (∀ (b : Byte) (n : Nat), 1 ≤ n → n ≤ 8 → decodeRelayBit b n = decide ((b >>> (n - 1)) &&& 1 = 1)) ∧
  (∀ n : Nat, 1 ≤ n → n ≤ 8 → decodeRelayBit 0xFF n = true ∧ decodeRelayBit 0x00 n = false) ∧
  (∀ n m : Nat, 1 ≤ n → n ≤ 8 → 1 ≤ m → m ≤ 8 → decodeRelayBit (byteOf (2 ^ (m - 1))) n = decide (n = m))

/-- R178, R177, R184, R175: the raw temperature is `255 * byte0 + byte1`, at most 65280; the firmware word is little-endian,
at most 65535; a mode reply that is neither set-mode opcode reads as `ModeUnknown` (the spec's decision D6). R180: the
board identity is the model byte, then the version byte; the parameter that swaps the two is log entry 18. -/
def Obligations.WordDecoders : Prop :=
  (∀ (b0 b1 : Byte),
    decodeTempRaw b0 b1 = 255 * b0.toNat + b1.toNat ∧ decodeTempRaw b0 b1 ≤ 65280 ∧
    decodeFirmwareVersion b0 b1 = b0.toNat + 256 * b1.toNat ∧ decodeFirmwareVersion b0 b1 ≤ 65535) ∧
  (∀ (cfg : Config) (b : Byte), b ≠ cfg.opcodeOf .setModeLatching → b ≠ cfg.opcodeOf .setModeMomentary →
    decodeMode cfg b = .modeUnknown) ∧
  (∀ (cfg : Config) (b0 b1 : Byte),
    (cfg.boardModelFirst = true → decodeBoardId cfg b0 b1 = .boardId b0 b1) ∧
    (cfg.boardModelFirst = false → decodeBoardId cfg b0 b1 = .boardId b1 b0))

/-- R103: a mode is sent as one of the two set-mode commands, without payload, and comes back as the one-byte reply of
`GET_MODE`, whose value is the opcode byte of the matching set command. -/
def Obligations.ModeReply : Prop :=
  ∀ (cfg : Config), cfg.opcodesDistinct = true →
    resolve (.setMode .latching) = .ok (some .setModeLatching) ∧
    encode cfg .setModeLatching = [cfg.opcodeOf .setModeLatching] ∧
    resolve (.setMode .momentary) = .ok (some .setModeMomentary) ∧
    encode cfg .setModeMomentary = [cfg.opcodeOf .setModeMomentary] ∧
    specReply cfg .getMode = .fixed 1 ∧
    ∀ (b : Byte) (rest : Bytes),
      (specDecode cfg (b :: rest) .getMode = .mode .latching ↔ b = cfg.opcodeOf .setModeLatching) ∧
      (specDecode cfg (b :: rest) .getMode = .mode .momentary ↔ b = cfg.opcodeOf .setModeMomentary)

/-- Nothing but the white space of R179: tab, LF, VT, FF, CR, space. -/
def WhiteSpace (bs : Bytes) : Prop := ∀ c ∈ bs, c ∈ [(0x09 : Byte), 0x0A, 0x0B, 0x0C, 0x0D, 0x20]

/-- The grammar of R179: `[ '+' | '-' ] DIGIT+ [ '.' DIGIT+ ]`, with its sign and its digits. -/
def MatchesDecimal (t : Bytes) (neg : Bool) (ip fp : Bytes) : Prop :=
  ip ≠ [] ∧ AsciiDigits ip ∧ AsciiDigits fp ∧
  ∃ sign, (sign = [] ∧ neg = false ∨ sign = [0x2B] ∧ neg = false ∨ sign = [0x2D] ∧ neg = true) ∧
    ((fp = [] ∧ t = sign ++ ip) ∨ (fp ≠ [] ∧ t = sign ++ ip ++ [0x2E] ++ fp))

/-- R179 (the grammar is the spec's decision D21): a text that matches, with white space around it, gives its sign, the
number its digits spell and the count of its fraction digits, without a sign when it is zero. -/
def Obligations.AsciiTemperatureParses : Prop :=
  ∀ (pre t post ip fp : Bytes) (neg : Bool), WhiteSpace pre → WhiteSpace post → MatchesDecimal t neg ip fp →
    decodeTempAscii (pre ++ t ++ post) =
      .tempAscii (neg && decide (spelled (ip ++ fp) ≠ 0)) (spelled (ip ++ fp)) fp.length

/-- R179: every other reply is a successful decode of 0. -/
def Obligations.AsciiTemperatureDefaults : Prop :=
  ∀ (bs : Bytes), (¬ ∃ pre t post neg ip fp, bs = pre ++ t ++ post ∧ WhiteSpace pre ∧ WhiteSpace post ∧
      MatchesDecimal t neg ip fp) →
    decodeTempAscii bs = .tempAscii false 0 0

/-! ## The read state machine, as every command's meaning runs it -/

/-- R203, R205, R207, R208: with bytes available and room for them, the step of any command in a read takes them all,
restarts the idle clock, and ends the read exactly when it is bounded and full. -/
def Obligations.ReadBranch : Prop :=
  ∀ (i : Instr) (s : State), s.fault = none → s.seq.rsmState = .accumulating → s.rx ≠ [] →
    (∀ cap, s.cfg.respCap = some cap → s.seq.acc.length + s.rx.length ≤ cap) →
    exec i s = .next { s with
      rx := []
      seq := { s.seq with
        acc := s.seq.acc ++ s.rx
        idleMs := 0
        rsmState := if 0 < s.seq.rsmExpected ∧ s.seq.rsmExpected ≤ (s.seq.acc ++ s.rx).length then .satisfied
                    else .accumulating } }

/-- R203, R209, R296, R299, R316: one byte too many for `RESP_CAP` records `BufferOverflow` and reads nothing; the read is
finished without a Response (a fault ends the steps and `RsmFinish` follows, 42_read_state_machine.md), the gate is freed,
and the block stays busy. (One step: log entry 16.) -/
def Obligations.ReadOverflow : Prop :=
  ∀ (i : Instr) (s : State) (cap : Nat), s.fault = none → s.seq.rsmState = .accumulating → s.rx ≠ [] →
    s.cfg.respCap = some cap → cap < s.seq.acc.length + s.rx.length →
    exec i s = .next { s with
      fault := some .bufferOverflow
      gateHeld := false
      seq := { s.seq with acc := [], rsmState := .idle } }

/-- R204, R205, R206, R207, R208: with nothing available the step sleeps one poll; the read ends only when the idle clock
exceeds the timeout, satisfied if it is unbounded with at least one byte and timed out otherwise. (A bounded read that is
already full ends first, R205.) -/
def Obligations.SleepBranch : Prop :=
  ∀ (i : Instr) (s : State), s.fault = none → s.seq.rsmState = .accumulating → s.rx = [] →
    exec i s = .next { s with
      seq := { s.seq with
        idleMs := s.seq.idleMs + 10
        sleptMs := s.seq.sleptMs + 10
        rsmState :=
          if 0 < s.seq.rsmExpected ∧ s.seq.rsmExpected ≤ s.seq.acc.length then .satisfied
          else if s.seq.idleMs + 10 ≤ s.seq.rsmTimeoutMs then .accumulating
          else if s.seq.rsmExpected ≤ 0 ∧ 1 ≤ s.seq.acc.length then .satisfied
          else .timedOut } }

/-- R211: on a silent line a read that has just started is still accumulating after `k < K(t)` steps, with the idle clock
at `10 k`, and timed out after exactly `K(t)`, having slept `K(t)` polls, bounded or not. -/
def Obligations.SilentReadTimesOut : Prop :=
  ∀ (s : State) (k : Nat), s.seq.rsmState = .accumulating → s.seq.acc = [] → s.seq.idleMs = 0 → s.rx = [] →
    k ≤ pollsOf s.seq.rsmTimeoutMs →
    Nat.iterate State.rsmStep k s = { s with
      seq := { s.seq with
        idleMs := 10 * k
        sleptMs := s.seq.sleptMs + 10 * k
        rsmState := if k = pollsOf s.seq.rsmTimeoutMs then .timedOut else .accumulating } }

/-- R212: an unbounded read that has just taken bytes ends satisfied exactly `K(t)` sleep steps later, with all of them. -/
def Obligations.UnboundedReadEndsOnSilence : Prop :=
  ∀ (s : State) (k : Nat), s.seq.rsmState = .accumulating → s.seq.rsmExpected ≤ 0 → s.seq.acc ≠ [] →
    s.seq.idleMs = 0 → s.rx = [] → k ≤ pollsOf s.seq.rsmTimeoutMs →
    Nat.iterate State.rsmStep k s = { s with
      seq := { s.seq with
        idleMs := 10 * k
        sleptMs := s.seq.sleptMs + 10 * k
        rsmState := if k = pollsOf s.seq.rsmTimeoutMs then .satisfied else .accumulating } }

/-! ## The exchange and the commands -/

/-- R152, R296, R297, R232: a command without a reply, given an open transport, a free gate and a write that succeeds,
completes in its first step: its bytes are written in one piece, the Response is `([], true)`, the result is `Unit`, the
gate is free again, the block idle, and nothing else changes. The 21 commands are those whose reply kind in R97 is
`None`. That all this is the first step is the model's granularity (log entry 7), and that a meaning run with `op_state`
idle starts an operation is the model's choice, in states where no step runs one (log entry 15). -/
def Obligations.CommandWithoutReplyCompletes : Prop :=
  ∀ (i : Instr) (s : State), hasReply s.cfg i = false →
    s.fault = none → s.seq.rsmState = .idle → s.seq.opState = .idle ∨ s.seq.opState = .firstTry →
    s.transportOpen = true → s.gateHeld = false → s.now.writeFault = none →
    exec i s = .next { s with
      tx := s.tx ++ encode s.cfg i
      seq := { s.seq with
        cmd := i
        resp := { bytes := [], ok := true }
        result := { value := .unit, ok := true, err := .none }
        opState := .idle
        cancelPending := false } }

/-- R296, R201, R97, R298: a command with a reply, at its first try or its retry, writes its bytes in one piece, holds the
gate, and starts its read with the count of R97 and the timeout of R298; nothing else changes. -/
def Obligations.QueryExchangeBegins : Prop :=
  ∀ (i : Instr) (s : State), hasReply s.cfg i = true →
    s.fault = none → s.seq.rsmState = .idle →
    (s.seq.opState = .firstTry ∧ s.transportOpen = true) ∨ (s.seq.opState = .retry ∧ s.seq.cmd = i) →
    s.gateHeld = false → s.now.writeFault = none →
    exec i s = .next { s with
      tx := s.tx ++ encode s.cfg i
      gateHeld := true
      seq := { s.seq with
        cmd := i
        rsmExpected := (specReply s.cfg i).expected
        rsmTimeoutMs := specTimeout s.cfg i
        acc := []
        idleMs := 0
        rsmState := .accumulating } }

/-- R231, R170, R209, R233: when the read of a command's first try or retry has ended satisfied, the command completes: the
Response is what was accumulated, the gate is freed, the result is the reply decoded by the command's own decoder, with no
error, and the block is idle. In a state whose satisfied read lacks a byte its decoder reads, that byte is 0, the model's
choice (log entry 21); a read started with the command's own count (R97, R170) lacks none (`fullRead` of `State.Inv`). -/
def Obligations.QueryCompletes : Prop :=
  ∀ (i : Instr) (s : State), hasReply s.cfg i = true →
    s.fault = none → s.seq.rsmState = .satisfied → s.seq.opState = .firstTry ∨ s.seq.opState = .retry →
    exec i s = .next { s with
      gateHeld := false
      seq := { s.seq with
        resp := { bytes := s.seq.acc, ok := true }
        acc := []
        rsmState := .idle
        result := { value := specDecode s.cfg s.seq.acc i, ok := true, err := .none }
        opState := .idle
        cancelPending := false } }

/-- R230, R231, R234, R320: the timeout of a command's first try starts the supervisor and is not reported; a command without
a reply makes no read and never starts it; and of a command's steps in its first try or its retry nothing else starts it.
(The request `Synchronize` starts it without a timeout: `SynchronizeReports`.) -/
def Obligations.FirstTimeoutStartsResync : Prop :=
  ∀ (i : Instr) (s : State), s.fault = none → s.seq.opState = .firstTry ∨ s.seq.opState = .retry →
    (s.seq.rsmState = .timedOut → s.seq.opState = .firstTry →
      exec i s = .next { s with
        gateHeld := false
        seq := { s.seq with
          resp := { bytes := [], ok := false }, acc := [], rsmState := .idle, opState := .resync } }) ∧
    (hasReply s.cfg i = false → s.seq.rsmState = .idle →
      ∃ t, exec i s = .next t ∧ t.seq.rsmState = .idle ∧ t.seq.opState ≠ .resync) ∧
    (∀ t, exec i s = .next t → t.seq.opState = .resync →
      s.seq.rsmState = .timedOut ∧ s.seq.opState = .firstTry)

/-- R234, R312, R318: the timeout of the retry ends the operation with the command's default and `Timeout`. -/
def Obligations.RetryTimeoutReported : Prop :=
  ∀ (i : Instr) (s : State), s.fault = none → s.seq.rsmState = .timedOut → s.seq.opState = .retry →
    exec i s = .next { s with
      gateHeld := false
      seq := { s.seq with
        resp := { bytes := [], ok := false }, acc := [], rsmState := .idle, supState := .idle
        result := { value := specDefault i, ok := false, err := .timeout }
        opState := .idle, cancelPending := false } }

/-- R311, R44: with the transport closed the operation ends at once with the command's default and `NotOpen`; nothing is
written. -/
def Obligations.ClosedTransportReported : Prop :=
  ∀ (i : Instr) (s : State), s.fault = none → s.seq.rsmState = .idle → s.seq.opState = .firstTry →
    s.transportOpen = false →
    exec i s = .next { s with
      seq := { s.seq with
        supState := .idle
        result := { value := specDefault i, ok := false, err := .notOpen }
        opState := .idle, cancelPending := false } }

/-- R64, R292, R316, R321: a write that fails after some bytes, at the first try, at the retry or at a supervisor's attempt,
records `TransportFault` and leaves the gate free; the result is not written and the block stays busy. An attempt writes
the password that was encoded when the supervisor started (R236), kept in `syncPw` (log entry 17). -/
def Obligations.FailedWriteFaults : Prop :=
  ∀ (i : Instr) (s : State) (k : Nat), s.fault = none → s.seq.rsmState = .idle → s.gateHeld = false →
    s.now.writeFault = some k →
    (s.seq.opState = .firstTry → s.transportOpen = true →
      exec i s = .next { s with
        tx := s.tx ++ (encode s.cfg i).take k
        fault := some .transportFault
        seq := { s.seq with cmd := i } }) ∧
    (s.seq.opState = .retry →
      exec i s = .next { s with
        tx := s.tx ++ (encode s.cfg i).take k
        fault := some .transportFault }) ∧
    (∀ a b c, s.seq.opState = .resync → s.seq.supState = .attempt → s.seq.syncPw = (a, b, c) →
      exec i s = .next { s with
        tx := s.tx ++ [s.cfg.opcodeOf (.verifyPassword a b c), a, b, c].take k
        fault := some .transportFault })

/-- R291: while the gate is held a command or a supervisor's attempt that wants to write waits: nothing is written, read,
counted or reported. -/
def Obligations.HeldGateBlocks : Prop :=
  ∀ (i : Instr) (s : State), s.fault = none → s.seq.rsmState = .idle → s.gateHeld = true →
    (s.seq.opState = .firstTry → s.transportOpen = true →
      exec i s = .next { s with seq := { s.seq with cmd := i } }) ∧
    (s.seq.opState = .retry → exec i s = .next s) ∧
    (s.seq.opState = .resync → s.seq.supState = .attempt → exec i s = .next s)

/-- R154, R124, R318, R239, R43, R30, R66: the frame of every command's meaning. Whatever the step, the configuration, the
password register, the Session, the transport's status, the other requesters and the inputs stay, and so does the request
latch; the command register takes the command or stays; the auth latch and the attempt count change only inside the
supervisor; the encoded password of the round trips only at the supervisor's start (R236, log entry 17); the result only
when the operation ends; a read's count, timeout and command not during the read; the Response only at the end of a read or
of a command without one; `rx` only in a read. -/
def Obligations.ExecFrame : Prop :=
  ∀ (i : Instr) (s t : State), exec i s = .next t →
    t.cfg = s.cfg ∧ t.curPw = s.curPw ∧ t.session = s.session ∧ t.transportOpen = s.transportOpen ∧
    t.parked = s.parked ∧ t.call = s.call ∧ t.ret = s.ret ∧ t.now = s.now ∧ t.inputs = s.inputs ∧
    t.inputCount = s.inputCount ∧ t.seq.req = s.seq.req ∧ (t.seq.cmd = s.seq.cmd ∨ t.seq.cmd = i) ∧
    (s.seq.opState ≠ .resync → t.seq.authValid = s.seq.authValid ∧ t.seq.authResult = s.seq.authResult ∧
      t.seq.attemptCnt = s.seq.attemptCnt) ∧
    (s.seq.opState = .resync ∧ s.seq.supState = .idle ∧ s.seq.rsmState = .idle ∨ t.seq.syncPw = s.seq.syncPw) ∧
    (t.seq.opState ≠ .idle → t.seq.result = s.seq.result) ∧
    (s.seq.rsmState ≠ .idle → t.seq.rsmExpected = s.seq.rsmExpected ∧ t.seq.rsmTimeoutMs = s.seq.rsmTimeoutMs ∧
      t.seq.cmd = s.seq.cmd) ∧
    (s.seq.rsmState = .accumulating ∨ (s.seq.rsmState = .idle ∧ hasReply s.cfg i = true) → t.seq.resp = s.seq.resp) ∧
    (s.seq.rsmState ≠ .accumulating → t.rx = s.rx)

/-- R60, R64, R74, R236: what a command's step may add to `tx`: nothing, its own bytes, inside the supervisor the bytes of
a verification of the password encoded at its start (kept in `syncPw`, log entry 17), or, when the write fails, the first
part of one of the two. -/
def Obligations.ExecWritesOnlyCommands : Prop :=
  ∀ (i : Instr) (s t : State), exec i s = .next t →
    t.tx = s.tx ∨
    ∃ bytes, (bytes = encode s.cfg i ∨
        (s.seq.opState = .resync ∧ ∃ a b c, s.seq.syncPw = (a, b, c) ∧
          bytes = encode s.cfg (.verifyPassword a b c))) ∧
      (t.tx = s.tx ++ bytes ∨ (t.fault = some .transportFault ∧ ∃ k, t.tx = s.tx ++ bytes.take k))

/-! ## The supervisor -/

/-- R236, R237, R315: the supervisor starts by clearing the attempt count and encoding the current password, which it keeps
in `syncPw` (log entry 17); the first attempt is counted before its exchange (log entry 25). A malformed password ends the
operation with the command's default and `InvalidPassword`. Nothing is written. -/
def Obligations.ResyncStartsOrRefuses : Prop :=
  ∀ (i : Instr) (s : State), s.fault = none → s.seq.rsmState = .idle → s.seq.opState = .resync →
    s.seq.supState = .idle →
    (∀ p, encodePassword s.curPw = some p →
      exec i s = .next { s with seq := { s.seq with attemptCnt := 1, syncPw := p, supState := .attempt } }) ∧
    (encodePassword s.curPw = none →
      exec i s = .next { s with
        seq := { s.seq with
          attemptCnt := 0, result := { value := specDefault i, ok := false, err := .invalidPassword }
          opState := .idle, cancelPending := false } })

/-- R236, R243, R248: an attempt is one plain exchange of `VERIFY_PASSWORD` with the password that was current when the
supervisor started and was encoded then (kept in `syncPw`, log entry 17), read as one byte with the default timeout,
whatever the command that called the supervisor. It has been counted already (log entry 25). -/
def Obligations.AttemptVerifiesCurrentPassword : Prop :=
  ∀ (i : Instr) (s : State) (a b c : Byte), s.fault = none → s.seq.rsmState = .idle → s.seq.opState = .resync →
    s.seq.supState = .attempt → s.gateHeld = false → s.now.writeFault = none →
    s.seq.syncPw = (a, b, c) →
    exec i s = .next { s with
      tx := s.tx ++ [s.cfg.opcodeOf (.verifyPassword a b c), a, b, c]
      gateHeld := true
      seq := { s.seq with
        rsmExpected := 1
        rsmTimeoutMs := s.cfg.timeoutDefaultMs
        acc := []
        idleMs := 0
        rsmState := .accumulating } }

/-- R238, R239: a satisfied attempt latches `DEC_BOOL` of the first byte and synchronises; a timed-out one sleeps before the
next, unless it was the tenth, which clears the latch and fails. A satisfied attempt without a byte, which `State.Inv`
rules out, reads it as 0, the model's choice (log entry 21). -/
def Obligations.AttemptOutcome : Prop :=
  ∀ (i : Instr) (s : State), s.fault = none → s.seq.opState = .resync →
    (s.seq.rsmState = .satisfied →
      exec i s = .next { s with
        gateHeld := false
        seq := { s.seq with
          resp := { bytes := s.seq.acc, ok := true }, acc := [], rsmState := .idle
          authValid := true, authResult := decodeBool s.cfg (s.seq.acc.getD 0 0), supState := .synced } }) ∧
    (s.seq.rsmState = .timedOut → s.seq.attemptCnt = 10 →
      exec i s = .next { s with
        gateHeld := false
        seq := { s.seq with
          resp := { bytes := [], ok := false }, acc := [], rsmState := .idle
          authValid := false, authResult := false, supState := .failed } }) ∧
    (s.seq.rsmState = .timedOut → s.seq.attemptCnt ≠ 10 →
      exec i s = .next { s with
        gateHeld := false
        seq := { s.seq with resp := { bytes := [], ok := false }, acc := [], rsmState := .idle, supState := .sleeping } })

/-- R240, R236, R233, R235: after the sleep the next attempt, counted; once synchronised the command is retried whatever the boolean; once
failed the operation ends with the default and `SyncFailed`. -/
def Obligations.SupervisorGoesOn : Prop :=
  ∀ (i : Instr) (s : State), s.fault = none → s.seq.rsmState = .idle → s.seq.opState = .resync →
    (s.seq.supState = .sleeping →
      exec i s = .next { s with
        seq := { s.seq with
          sleptMs := s.seq.sleptMs + 10, supState := .attempt, attemptCnt := s.seq.attemptCnt + 1 } }) ∧
    (s.seq.supState = .synced →
      exec i s = .next { s with seq := { s.seq with supState := .idle, opState := .retry } }) ∧
    (s.seq.supState = .failed →
      exec i s = .next { s with
        seq := { s.seq with
          supState := .idle, result := { value := specDefault i, ok := false, err := .syncFailed }
          opState := .idle, cancelPending := false } })

/-- R236, R238, R239, R240, R242, R311, R315: the steps of a requester whose request is `Synchronize`, and what they report.
Presented to an idle block with the transport closed, it ends at once with `Bool(false)` and `NotOpen`; with a malformed
password, with `Bool(false)` and `InvalidPassword`; otherwise the supervisor starts, with the password encoded (kept in
`syncPw`, log entry 17) and the first attempt counted (log entry 25); in none of the three is anything written. Every later
step is a step of the bare resynchronisation: an attempt is one exchange of `VERIFY_PASSWORD` with the password encoded at
the start; a satisfied attempt latches its boolean and synchronises (a byte it lacks reads as 0, log entry 21), the tenth
timeout clears the latch and fails, another sleeps before the next attempt; a step in a read, at a sleep, at an attempt (a
failed write and a held gate included) or at a read's end is the one any command's meaning takes in its resynchronisation,
so what is stated of those holds of it; and it ends with the latched boolean once synchronised and with `Bool(false)` and
`SyncFailed` once failed. (Acceptance and the first step are one: log entry 7.) -/
def Obligations.SynchronizeReports : Prop :=
  (∀ (s : State), s.fault = none → s.seq.busy = false → s.seq.rsmState = .idle → s.call = .idle →
    s.openingElsewhere = false → s.nextInput.move = .request .synchronize →
    step s = .next (s.sample.accept .synchronize).syncStep ∧
    (s.transportOpen = false →
      step s = .next { s.sample with
        seq := { s.seq with
          req := .synchronize, supState := .idle
          result := { value := .bool false, ok := false, err := .notOpen }
          opState := .idle, cancelPending := false } }) ∧
    (s.transportOpen = true → encodePassword s.curPw = none →
      step s = .next { s.sample with
        seq := { s.seq with
          req := .synchronize, supState := .idle, attemptCnt := 0
          result := { value := .bool false, ok := false, err := .invalidPassword }
          opState := .idle, cancelPending := false } }) ∧
    (∀ p, s.transportOpen = true → encodePassword s.curPw = some p →
      step s = .next { s.sample with
        seq := { s.seq with
          req := .synchronize, opState := .resync, supState := .attempt, attemptCnt := 1, syncPw := p } })) ∧
  (∀ (s : State), s.fault = none → s.seq.busy = true → s.seq.req = .synchronize → s.seq.cancelPending = false →
    s.cfg.hasCancel = false → s.nextInput.move ≠ .reset → (∀ k, s.nextInput.move ≠ .turn k) →
    step s = .next s.sample.syncStep ∧
    (s.seq.opState = .resync →
      s.seq.rsmState ≠ .idle ∨ s.seq.supState = .sleeping ∨ s.seq.supState = .attempt → ∀ i, step s = exec i s.sample) ∧
    (∀ a b c, s.seq.opState = .resync → s.seq.rsmState = .idle → s.seq.supState = .attempt →
      s.seq.syncPw = (a, b, c) → s.gateHeld = false → s.nextInput.writeFault = none →
      step s = .next { s.sample with
        tx := s.tx ++ [s.cfg.opcodeOf (.verifyPassword a b c), a, b, c]
        gateHeld := true
        seq := { s.seq with
          rsmExpected := 1, rsmTimeoutMs := s.cfg.timeoutDefaultMs
          acc := [], idleMs := 0, rsmState := .accumulating } }) ∧
    (s.seq.opState = .resync → s.seq.rsmState = .satisfied →
      step s = .next { s.sample with
        gateHeld := false
        seq := { s.seq with
          resp := { bytes := s.seq.acc, ok := true }, acc := [], rsmState := .idle
          authValid := true, authResult := decodeBool s.cfg (s.seq.acc.getD 0 0), supState := .synced } }) ∧
    (s.seq.opState = .resync → s.seq.rsmState = .timedOut → s.seq.attemptCnt = 10 →
      step s = .next { s.sample with
        gateHeld := false
        seq := { s.seq with
          resp := { bytes := [], ok := false }, acc := [], rsmState := .idle
          authValid := false, authResult := false, supState := .failed } }) ∧
    (s.seq.opState = .resync → s.seq.rsmState = .timedOut → s.seq.attemptCnt ≠ 10 →
      step s = .next { s.sample with
        gateHeld := false
        seq := { s.seq with
          resp := { bytes := [], ok := false }, acc := [], rsmState := .idle, supState := .sleeping } }) ∧
    (s.seq.opState = .resync → s.seq.rsmState = .idle → s.seq.supState = .sleeping →
      step s = .next { s.sample with
        seq := { s.seq with
          sleptMs := s.seq.sleptMs + 10, supState := .attempt, attemptCnt := s.seq.attemptCnt + 1 } }) ∧
    (s.seq.opState = .resync → s.seq.rsmState = .idle → s.seq.supState = .synced →
      step s = .next { s.sample with
        seq := { s.seq with
          supState := .idle, result := { value := .bool s.seq.authResult, ok := true, err := .none }
          opState := .idle, cancelPending := false } }) ∧
    (s.seq.opState = .resync → s.seq.rsmState = .idle → s.seq.supState = .failed →
      step s = .next { s.sample with
        seq := { s.seq with
          supState := .idle, result := { value := .bool false, ok := false, err := .syncFailed }
          opState := .idle, cancelPending := false } }))

/-! ## Whole operations -/

/-- R232, R152: a command with a fixed-length reply that is there at the first sample completes in three steps of the
machine: one command written, no time slept, the reply decoded, the supervisor not run. (Three steps: the granularity of
log entry 7.) -/
def Obligations.PromptReplyCompletesInThreeSteps : Prop :=
  ∀ (s : State) (i : Instr) (n : Nat) (reply : Bytes) (later : List Input),
    s.fault = none → s.seq.busy = false → s.seq.rsmState = .idle → s.call = .idle → s.openingElsewhere = false →
    s.transportOpen = true → s.gateHeld = false → s.rx = [] → s.cfg.respCap = none → s.cfg.hasCancel = false →
    s.seq.cancelPending = false → i.wf = true →
    specReply s.cfg i = .fixed n → 1 ≤ n → n ≤ reply.length →
    s.inputs = { Input.quiet with move := .request (requestOf i) } :: { Input.quiet with arr := reply } ::
      Input.quiet :: later →
    ∃ t, Host.Core.run Sys2Proof.core 3 s = .next t ∧
      t.seq.result = { value := specDecode s.cfg reply i, ok := true, err := .none } ∧
      t.seq.busy = false ∧ t.gateHeld = false ∧ t.tx = s.tx ++ encode s.cfg i ∧ t.rx = [] ∧
      t.seq.sleptMs = s.seq.sleptMs ∧ t.seq.attemptCnt = s.seq.attemptCnt ∧
      t.seq.authValid = s.seq.authValid ∧ t.seq.authResult = s.seq.authResult

/-- R244, R241, R235, R245: a command with a reply on a dead link. There is a number of steps such that, whatever inputs are
listed after them, the request followed by that many steps of silence ends the operation with the default and `SyncFailed`, after eleven commands (its own once
and the verification of the current password ten times) and exactly `10 K(t) + 100 K(TIMEOUT_DEFAULT_MS) + 90` ms of
sleeping; the auth latch is cleared. -/
def Obligations.DeadLinkEndsInSyncFailed : Prop :=
  ∀ (s : State) (i : Instr) (a b c : Byte),
    s.fault = none → s.seq.busy = false → s.seq.rsmState = .idle → s.seq.supState = .idle → s.call = .idle →
    s.openingElsewhere = false → s.transportOpen = true → s.gateHeld = false → s.rx = [] →
    s.cfg.hasCancel = false → s.seq.cancelPending = false → i.wf = true → hasReply s.cfg i = true →
    encodePassword s.curPw = some (a, b, c) →
    ∃ steps, ∀ later, ∃ t,
      Host.Core.run Sys2Proof.core (steps + 1) { s with
          inputs := { Input.quiet with move := .request (requestOf i) } ::
            (List.replicate steps Input.quiet ++ later) } = .next t ∧
        t.inputs = later ∧
        t.seq.result = { value := specDefault i, ok := false, err := .syncFailed } ∧
        t.seq.busy = false ∧ t.gateHeld = false ∧ t.rx = [] ∧ t.seq.attemptCnt = 10 ∧
        t.seq.authValid = false ∧ t.seq.authResult = false ∧
        t.tx = s.tx ++ encode s.cfg i ++ (List.replicate 10 (encode s.cfg (.verifyPassword a b c))).flatten ∧
        t.seq.sleptMs = s.seq.sleptMs + 10 * pollsOf (specTimeout s.cfg i) + 100 * pollsOf s.cfg.timeoutDefaultMs + 90

/-! ## Errors, faults, cancel, reset -/

/-- R310: the codes of the nine names. -/
def Obligations.ErrorCodesOfTheTable : Prop :=
  ErrorCode.code .none = 0 ∧ ErrorCode.code .notOpen = 1 ∧ ErrorCode.code .alreadyOpen = 2 ∧
  ErrorCode.code .invalidPassword = 3 ∧ ErrorCode.code .timeout = 4 ∧ ErrorCode.code .syncFailed = 5 ∧
  ErrorCode.code .authenticationFailed = 6 ∧ ErrorCode.code .invalidRelayNumber = 7 ∧ ErrorCode.code .cancelled = 8

/-- R318: `raise` writes the failure value and the error, rests the three machines, and changes nothing else of the state,
but that a cancel still pending is forgotten (log entry 9). -/
def Obligations.RaiseRestsTheMachines : Prop :=
  ∀ (s : State) (v : ResultValue) (e : ErrorCode), e ≠ .none →
    s.raise v e = { s with
      seq := { s.seq with
        result := { value := v, ok := false, err := e }
        opState := .idle, supState := .idle, rsmState := .idle, cancelPending := false } }

/-- R319, R318, R66 (with `HAS_CANCEL`; the boundary is log entry 9): a cancel asserted while busy, at a step boundary, ends
the operation: an exchange under way is abandoned with its bytes and the gate freed, the machines rest, and the result is
the request's default with `Cancelled`. Nothing is written, and nothing is taken out of `rx`, in a read too; the password,
the auth latch and the attempt count stay. -/
def Obligations.CancelEndsTheOperation : Prop :=
  ∀ (s : State), s.cfg.hasCancel = true → s.fault = none → s.seq.busy = true →
    s.seq.rsmState = .idle ∨ s.seq.rsmState = .accumulating → s.nextInput.move = .cancel →
    ∃ t, step s = .next t ∧ t.seq.result = { value := failureOf s.seq.req, ok := false, err := .cancelled } ∧
      t.seq.busy = false ∧ t.seq.supState = .idle ∧ t.seq.rsmState = .idle ∧
      (s.seq.rsmState = .accumulating → t.gateHeld = false ∧ t.seq.acc = []) ∧
      (s.seq.rsmState = .idle → t.gateHeld = s.gateHeld) ∧
      t.tx = s.tx ∧ t.rx = s.rx ++ s.nextInput.arr ∧ t.curPw = s.curPw ∧ t.seq.authValid = s.seq.authValid ∧
      t.seq.authResult = s.seq.authResult ∧ t.seq.attemptCnt = s.seq.attemptCnt ∧ t.fault = none

/-- R316, R351: a faulted block takes no step but reset, which clears the fault. -/
def Obligations.FaultStopsUntilReset : Prop :=
  ∀ (s : State) (f : Fault), s.fault = some f →
    (s.nextInput.move ≠ .reset → step s = .fault f) ∧
    (s.nextInput.move = .reset → ∃ t, step s = .next t ∧ t.fault = none) ∧
    ∀ i, exec i s = .fault f

/-- R50: the reset values of every field of R20 that has one. -/
def Obligations.ResetValues : Prop :=
  State.reset.seq.opState = .idle ∧ State.reset.seq.supState = .idle ∧ State.reset.seq.rsmState = .idle ∧
  State.reset.seq.acc = [] ∧ State.reset.seq.idleMs = 0 ∧ State.reset.seq.attemptCnt = 0 ∧ State.reset.curPw = [] ∧
  State.reset.seq.authValid = false ∧ State.reset.seq.authResult = false ∧ State.reset.gateHeld = false ∧
  State.reset.seq.resp = { bytes := [], ok := false } ∧
  State.reset.seq.result = { value := .unit, ok := false, err := .none } ∧ State.reset.fault = none ∧
  State.reset.seq.rsmExpected = 0 ∧ State.reset.seq.rsmTimeoutMs = 0

/-- R350, R351, R51: the reset input, at any time, a fault or an exchange in progress included, puts every requester's
registers, the password register, the gate and the fault to their reset values and leaves the transport alone. The reset
values of `req` and `cmd`, which R52 does not give, and of the fields that are the model's own are its choice (log entries 3,
10 and 22), and so is that all requesters are reset together (log entry 8). -/
def Obligations.ResetMove : Prop :=
  ∀ (s : State), s.nextInput.move = .reset →
    ∃ t, step s = .next t ∧ (∀ q ∈ t.threads, q.seq = Sequencer.reset) ∧ t.threads.length = s.threads.length ∧
      t.curPw = [] ∧ t.gateHeld = false ∧ t.fault = none ∧ t.cfg = s.cfg ∧
      t.tx = s.tx ∧ t.rx = s.rx ++ s.nextInput.arr ∧ t.transportOpen = s.transportOpen

/-! ## Whole-machine rules -/

/-- The three invariants hold at reset (R27, R35, R23, R50; the control invariant's clauses beside R27's are those of
`StepKeepsInv`, with its log entries). -/
def Obligations.InvAtReset : Prop := State.reset.Inv ∧ State.reset.SessionInv ∧ State.reset.WithinCapacity

/-- R27, R290, R292, R366: every step, one that records a fault too (in that one step: log entry 16), keeps the control
state legal and the gate held exactly during one requester's exchange, with several requesters too (log entry 8). Legal is
more than R27 says: that no state a step ends in is `Done` is the model's granularity (R246; log entry 7), that an attempt is
counted before its exchange its reading of R236 (log entry 25), and the payload in `syncPw` its own field (R236, R237; log
entry 17); the other clauses are those of R236, R240 to R242, R201, R204, R205, R207, R209 and R170. -/
def Obligations.StepKeepsInv : Prop :=
  ∀ (s t : State), s.Inv → step s = .next t → t.Inv

/-- R20, R23, R203: no step lets a response buffer exceed `RESP_CAP`. -/
def Obligations.StepKeepsWithinCapacity : Prop :=
  ∀ (s t : State), s.WithinCapacity → step s = .next t → t.WithinCapacity

/-- R35, R275, R262, R277: every step keeps the Session's promises. -/
def Obligations.StepKeepsSessionInv : Prop :=
  ∀ (s t : State), s.SessionInv → step s = .next t → t.SessionInv

/-- R31: the configuration does not change while the block runs. One input is sampled per step (log entry 2). -/
def Obligations.StepKeepsConfig : Prop :=
  ∀ (s t : State), step s = .next t →
    t.cfg = s.cfg ∧ t.inputs = s.inputs.tail ∧ t.inputCount = s.inputCount + 1 ∧ t.now = s.nextInput

/-- R60, R64, R74: `tx` only grows, and only by whole commands, or by the first part of one when the write fails. -/
def Obligations.StepAppendsWholeCommands : Prop :=
  ∀ (s t : State), step s = .next t →
    t.tx = s.tx ∨ (∃ i, t.tx = s.tx ++ encode s.cfg i) ∨
    (t.fault = some .transportFault ∧ ∃ i k, t.tx = s.tx ++ (encode s.cfg i).take k)

/-- R66, R63: nothing but a read of the requester whose turn it is takes bytes out of `rx`; no purge, at a write, at reset
or anywhere. -/
def Obligations.OnlyReadsTakeBytes : Prop :=
  ∀ (s t : State), step s = .next t → s.seq.rsmState ≠ .accumulating → t.rx = s.rx ++ s.nextInput.arr

/-- R41: a request presented while the block is busy has no effect: the step is the one taken with no move, but for the
record of the input sampled. That a password, a transport change and a public operation presented then have none either is
the model's choice (log entry 13): R84 and R375 put such a host outside the model. -/
def Obligations.BusyIgnoresTheHost : Prop :=
  ∀ (s : State) (d : Input) (rest : List Input), s.inputs = d :: rest → s.seq.busy = true →
    d.move ≠ .reset → d.move ≠ .cancel → (∀ k, d.move ≠ .turn k) →
    (∀ t, step s = .next t →
      step { s with inputs := { d with move := .nothing } :: rest } =
        .next { t with now := { d with move := .nothing } })

/-- R380, R46: model time passes only in sleeps, of 10 ms each, one at most in a step, and a step that sleeps writes and
reads nothing: so of every command's step, and of every step that is no reset and no turn, of the bare resynchronisation and
of the Session too. Time passes for the requester whose turn it is alone. A step that closes the session resets the block,
and the sum of its sleeps with it (log entry 10). -/
def Obligations.TimePassesOnlyInSleeps : Prop :=
  (∀ (i : Instr) (s t : State), exec i s = .next t →
    t.seq.sleptMs = s.seq.sleptMs ∨
    (t.seq.sleptMs = s.seq.sleptMs + 10 ∧ t.tx = s.tx ∧ t.rx = s.rx)) ∧
  (∀ (s t : State), step s = .next t → s.nextInput.move ≠ .reset → (∀ k, s.nextInput.move ≠ .turn k) →
    (t.seq.sleptMs = s.seq.sleptMs ∧ t.parked = s.parked) ∨
    (t.seq.sleptMs = s.seq.sleptMs + 10 ∧ t.parked = s.parked ∧ t.tx = s.tx ∧ t.rx = s.rx ++ s.nextInput.arr) ∨
    (t.session = Session.reset ∧ t.transportOpen = false ∧ (∀ q ∈ t.threads, q.seq = Sequencer.reset) ∧
      t.tx = s.tx ∧ t.rx = s.rx ++ s.nextInput.arr))

/-- R340 (the turn is the model's move, log entry 8): a turn gives the turn to the parked requester it names, leaves it where
it is if there is none, and changes nothing else: the requesters are the same, and so is everything they share. -/
def Obligations.TurnOnlyReorders : Prop :=
  ∀ (s : State) (k : Nat), s.fault = none → s.nextInput.move = .turn k →
    ∃ t, step s = .next t ∧ (∀ q, s.parked[k]? = some q → t.thread = q) ∧
      (s.parked.length ≤ k → t.thread = s.thread) ∧ t.threads.Perm s.threads ∧ t.tx = s.tx ∧ t.rx = s.rx ++ s.nextInput.arr ∧
      t.gateHeld = s.gateHeld ∧ t.curPw = s.curPw ∧ t.session = s.session ∧ t.transportOpen = s.transportOpen ∧
      t.fault = none

/-! ## The Session -/

/-- R274, R311: on a closed session every public operation but `open` and `close` returns `NotOpen`, and nothing is
presented to the block. -/
def Obligations.ClosedSessionPresentsNothing : Prop :=
  ∀ (s : State) (c : Call), s.fault = none → s.seq.busy = false → s.call = .idle → s.openingElsewhere = false →
    s.nextInput.move = .call c → s.session = Session.reset → (∀ p pw, c ≠ .openSession p pw) → c ≠ .closeSession →
    ∃ t, step s = .next t ∧ t.ret.err = .notOpen ∧ t.call = .idle ∧ t.seq = s.seq ∧ t.tx = s.tx ∧
      t.session = s.session

/-- R261, R277, R317: `open` on an open session fails fast with `AlreadyOpen` and changes nothing else, whatever the other
requesters are doing: the session is open in the middle of another requester's `open` too. -/
def Obligations.OpenTwiceFailsFast : Prop :=
  ∀ (s : State) (port pw : Bytes), s.fault = none → s.seq.busy = false → s.call = .idle →
    s.nextInput.move = .call (.openSession port pw) → s.session.isOpen = true →
    step s = .next { s.sample with ret := { value := .nothing, err := .alreadyOpen } }

/-- What a failed `open` leaves: the session and the transport closed, the password register and the requester's block at
reset, nothing written. -/
def LeavesClosed (s t : State) : Prop :=
  t.session = Session.reset ∧ t.call = .idle ∧ t.transportOpen = false ∧ t.curPw = [] ∧ t.seq = Sequencer.reset ∧
  t.tx = s.tx

/-- R261, R262, R276: an `open` whose transport, verification or identity query fails leaves the session and the transport
closed and the block reset (`req`, `cmd` and the model's own fields at the values of log entries 3, 10 and 22). It reports
`AuthenticationFailed` when the verification is answered no, or not at all; the failing query's error when an identity query
fails (the first one's when both do: log entry 26); and, with no error name (log entry 14), a transport that does not
open. An `open` refused for a malformed password raises `InvalidPassword`; that it leaves the transport and the password
register as a raw host had them is the model's choice (log entry 27). -/
def Obligations.FailedOpenLeavesClosed : Prop :=
  ∀ (s : State), s.fault = none → s.seq.busy = false →
    (s.call = .openSync → s.nextInput.move ≠ .reset → (∀ k, s.nextInput.move ≠ .turn k) →
      s.seq.result.err = .syncFailed ∨ s.seq.result.value = .bool false →
      ∃ t, step s = .next t ∧ LeavesClosed s t ∧ t.ret.err = .authenticationFailed) ∧
    (∀ id, s.call = .openFirmware id → s.nextInput.move ≠ .reset → (∀ k, s.nextInput.move ≠ .turn k) →
      id.ok = false ∨ s.seq.result.ok = false →
      ∃ t, step s = .next t ∧ LeavesClosed s t ∧ t.ret.err = if id.ok then s.seq.result.err else id.err) ∧
    (∀ port pw, s.call = .idle → s.nextInput.move = .call (.openSession port pw) → s.session.isOpen = false →
      s.quiet = true → encodePassword pw ≠ none → s.nextInput.openFails = true →
      ∃ t, step s = .next t ∧ LeavesClosed s t ∧ t.ret = { value := .hardFailure, err := .none }) ∧
    (∀ port pw, s.call = .idle → s.nextInput.move = .call (.openSession port pw) → s.session.isOpen = false →
      s.quiet = true → encodePassword pw = none →
      step s = .next { s.sample with ret := { value := .nothing, err := .invalidPassword } })

/-- R261, R264: the last step of `open`: when both identity queries have succeeded, the read-once fields are filled from
them, the channel count from the model, the session is authenticated and stays open, and the operation returns. -/
def Obligations.OpenFetchesIdentity : Prop :=
  ∀ (s : State) (model version : Byte) (w : Nat) (id : OpResult), s.fault = none → s.seq.busy = false →
    s.nextInput.move ≠ .reset → (∀ k, s.nextInput.move ≠ .turn k) →
    s.call = .openFirmware id → id = { value := .boardId model version, ok := true, err := .none } →
    s.seq.result = { value := .firmware w, ok := true, err := .none } →
    step s = .next { s.sample with
      call := .idle
      ret := { value := .nothing, err := .none }
      session := { s.session with
        isAuthenticated := true
        identity := some { boardModel := model, boardVersion := version, firmwareVersion := w,
                           channelCount := channelsOfModel s.cfg model } } }

/-- R263: a new password is adopted only after the device has confirmed it. A step that changes the current password of an
open session ends a `changePassword` whose awaited result said yes, or closes the session; and the results it awaits are, in
this order, those of verifying the current password, of setting the new one (asked for only if the first did not say no or
fail) and of verifying the new one: its phases are entered in no other way, and while it waits in one the request stays. -/
def Obligations.OnlyVerifiedPasswordAdopted : Prop :=
  (∀ (s t : State), step s = .next t → s.session.isOpen = true → t.session.isOpen = true →
    t.session.currentPassword ≠ s.session.currentPassword →
    ∃ new, s.call = .changeNew new ∧ s.seq.busy = false ∧ s.seq.result.ok = true ∧ s.seq.result.value = .bool true ∧
      t.session.currentPassword = new ∧ t.curPw = new ∧ t.ret = { value := .success true, err := .none }) ∧
  (∀ (s t : State) (new : Bytes), step s = .next t → (∀ k, s.nextInput.move ≠ .turn k) →
    (t.call = .changeOld new →
      (s.call = .changeOld new ∧ t.seq.req = s.seq.req) ∨
      (s.call = .idle ∧ t.seq.req = .verifyPassword s.session.currentPassword)) ∧
    (t.call = .changeSet new →
      (s.call = .changeSet new ∧ t.seq.req = s.seq.req) ∨
      (s.call = .changeOld new ∧ s.seq.result.ok = true ∧ s.seq.result.value ≠ .bool false ∧
        t.seq.req = .setPassword new)) ∧
    (t.call = .changeNew new →
      (s.call = .changeNew new ∧ t.seq.req = s.seq.req) ∨
      (s.call = .changeSet new ∧ t.seq.req = .verifyPassword new)))

/-- R267: `setRelay` of a relay number from 1 to 8 sends the set command of that relay and state and then asks for the relay
states; it reports whether the requested bit is seen, or the error of the query. Any other relay number is
`InvalidRelayNumber`, and nothing is sent. Its phases are entered in no other way: the first with the request
`SetRelay(n, s)`, the second after it with `GetRelayStates`. -/
def Obligations.SetRelayConfirms : Prop :=
  (∀ (s : State) (n : Int) (state : Bool), s.fault = none → s.seq.busy = false → s.call = .idle →
    s.openingElsewhere = false → s.session.isOpen = true → s.nextInput.move = .call (.setRelay n state) →
    (n < 1 ∨ 8 < n → step s = .next { s.sample with ret := { value := .nothing, err := .invalidRelayNumber } }) ∧
    (1 ≤ n → n ≤ 8 → s.transportOpen = true → s.gateHeld = false → s.nextInput.writeFault = none →
      s.seq.rsmState = .idle →
      ∃ t i, step s = .next t ∧ t.call = .relaySet n state ∧ t.seq.req = .setRelay n state ∧
        relayCommand n state = some i ∧ t.seq.cmd = i ∧ t.tx = s.tx ++ encode s.cfg i)) ∧
  (∀ (s t : State) (n : Int) (state : Bool), step s = .next t → (∀ k, s.nextInput.move ≠ .turn k) →
    (t.call = .relaySet n state →
      (s.call = .relaySet n state ∧ t.seq.req = s.seq.req) ∨
      (s.call = .idle ∧ 1 ≤ n ∧ n ≤ 8 ∧ t.seq.req = .setRelay n state)) ∧
    (t.call = .relayConfirm n state →
      (s.call = .relayConfirm n state ∧ t.seq.req = s.seq.req) ∨
      (s.call = .relaySet n state ∧ t.seq.req = .getRelayStates))) ∧
  (∀ (s : State) (n : Int) (state : Bool), s.fault = none → s.seq.busy = false →
    s.nextInput.move ≠ .reset → (∀ k, s.nextInput.move ≠ .turn k) →
    (s.call = .relaySet n state → s.transportOpen = true → s.gateHeld = false → s.nextInput.writeFault = none →
      s.seq.rsmState = .idle →
      ∃ t, step s = .next t ∧ t.call = .relayConfirm n state ∧ t.seq.cmd = .getRelayStates ∧
        t.tx = s.tx ++ encode s.cfg .getRelayStates) ∧
    (s.call = .relayConfirm n state →
      ∃ t, step s = .next t ∧ t.call = .idle ∧
        (∀ m, s.seq.result = { value := .bitmask m, ok := true, err := .none } →
          t.ret = { value := .success (decodeRelayBit m n.toNat == state), err := .none }) ∧
        (s.seq.result.ok = false → t.ret = { value := .success false, err := s.seq.result.err })))

/-- R270, R335: `setOperatingMode` presents at most three set-mode commands. Its count starts at 0 with its first mode read,
each set-mode command presented adds one to it and none is presented at 3, nothing else of the loop changes it, and it is
never above 3; and while it is below 3 and the mode differs the next set-mode command does go out. -/
def Obligations.ModeLoopBounded : Prop :=
  (∀ (s t : State), step s = .next t →
    (∀ q ∈ s.threads, ∀ m k, q.call = .modeRead m k ∨ q.call = .modeSent m k → k ≤ 3) →
    (∀ q ∈ t.threads, ∀ m k, q.call = .modeRead m k ∨ q.call = .modeSent m k → k ≤ 3)) ∧
  (∀ (s t : State) (m : Mode) (k : Nat), step s = .next t → (∀ j, s.nextInput.move ≠ .turn j) →
    (s.call = .idle → t.call = .modeRead m k ∨ t.call = .modeSent m k →
      t.call = .modeRead m 0 ∧ t.seq.req = .getMode) ∧
    (s.call = .modeRead m k → k ≤ 3 →
      t.call = .idle ∨ (t.call = .modeRead m k ∧ t.seq.req = s.seq.req) ∨
      (k < 3 ∧ t.call = .modeSent m (k + 1) ∧ t.seq.req = .setMode m)) ∧
    (s.call = .modeSent m k →
      t.call = .idle ∨ (t.call = .modeSent m k ∧ t.seq.req = s.seq.req) ∨
      (t.call = .modeRead m k ∧ t.seq.req = .getMode))) ∧
  (∀ (s : State) (m : Mode) (k : Nat), s.fault = none → s.seq.busy = false → s.nextInput.move ≠ .reset →
    (∀ j, s.nextInput.move ≠ .turn j) → s.call = .modeRead m k → s.seq.result.ok = true →
    s.seq.result.value.modeRead ≠ readingOf m → k < 3 → s.seq.rsmState = .idle → s.transportOpen = true →
    s.gateHeld = false → s.nextInput.writeFault = none →
    ∃ t i, step s = .next t ∧ t.call = .modeSent m (k + 1) ∧ t.seq.req = .setMode m ∧
      resolve (.setMode m) = .ok (some i) ∧ t.tx = s.tx ++ encode s.cfg i)
end

