-- ==== Sys2Proof/Laws/State.lean ====
section
/-! SUPPORT. One lemma per field of the state per named update, true by `rfl`: later proofs read a field of an updated
state without unfolding the update. -/

namespace Sys2Proof.Machine

/-! ## `sample` -/

@[simp] theorem sample_cfg (s : State) : (s.sample).cfg = s.cfg := rfl
@[simp] theorem sample_seq (s : State) : (s.sample).seq = s.seq := rfl
@[simp] theorem sample_call (s : State) : (s.sample).call = s.call := rfl
@[simp] theorem sample_ret (s : State) : (s.sample).ret = s.ret := rfl
@[simp] theorem sample_parked (s : State) : (s.sample).parked = s.parked := rfl
@[simp] theorem sample_curPw (s : State) : (s.sample).curPw = s.curPw := rfl
@[simp] theorem sample_gateHeld (s : State) : (s.sample).gateHeld = s.gateHeld := rfl
@[simp] theorem sample_fault (s : State) : (s.sample).fault = s.fault := rfl
@[simp] theorem sample_session (s : State) : (s.sample).session = s.session := rfl
@[simp] theorem sample_transportOpen (s : State) : (s.sample).transportOpen = s.transportOpen := rfl
@[simp] theorem sample_tx (s : State) : (s.sample).tx = s.tx := rfl
@[simp] theorem sample_rx (s : State) : (s.sample).rx = s.rx ++ s.nextInput.arr := rfl
@[simp] theorem sample_now (s : State) : (s.sample).now = s.nextInput := rfl
@[simp] theorem sample_inputs (s : State) : (s.sample).inputs = s.inputs.tail := rfl
@[simp] theorem sample_inputCount (s : State) : (s.sample).inputCount = s.inputCount + 1 := rfl

/-! ## `rxDrop` -/

@[simp] theorem rxDrop_cfg (s : State) (n : Nat) : (s.rxDrop n).cfg = s.cfg := rfl
@[simp] theorem rxDrop_seq (s : State) (n : Nat) : (s.rxDrop n).seq = s.seq := rfl
@[simp] theorem rxDrop_call (s : State) (n : Nat) : (s.rxDrop n).call = s.call := rfl
@[simp] theorem rxDrop_ret (s : State) (n : Nat) : (s.rxDrop n).ret = s.ret := rfl
@[simp] theorem rxDrop_parked (s : State) (n : Nat) : (s.rxDrop n).parked = s.parked := rfl
@[simp] theorem rxDrop_curPw (s : State) (n : Nat) : (s.rxDrop n).curPw = s.curPw := rfl
@[simp] theorem rxDrop_gateHeld (s : State) (n : Nat) : (s.rxDrop n).gateHeld = s.gateHeld := rfl
@[simp] theorem rxDrop_fault (s : State) (n : Nat) : (s.rxDrop n).fault = s.fault := rfl
@[simp] theorem rxDrop_session (s : State) (n : Nat) : (s.rxDrop n).session = s.session := rfl
@[simp] theorem rxDrop_transportOpen (s : State) (n : Nat) : (s.rxDrop n).transportOpen = s.transportOpen := rfl
@[simp] theorem rxDrop_tx (s : State) (n : Nat) : (s.rxDrop n).tx = s.tx := rfl
@[simp] theorem rxDrop_rx (s : State) (n : Nat) : (s.rxDrop n).rx = s.rx.drop n := rfl
@[simp] theorem rxDrop_now (s : State) (n : Nat) : (s.rxDrop n).now = s.now := rfl
@[simp] theorem rxDrop_inputs (s : State) (n : Nat) : (s.rxDrop n).inputs = s.inputs := rfl
@[simp] theorem rxDrop_inputCount (s : State) (n : Nat) : (s.rxDrop n).inputCount = s.inputCount := rfl

/-! ## `accept` -/

@[simp] theorem accept_cfg (s : State) (r : Request) : (s.accept r).cfg = s.cfg := rfl
@[simp] theorem accept_seq (s : State) (r : Request) :
    (s.accept r).seq = { s.seq with req := r, opState := .firstTry } := rfl
@[simp] theorem accept_call (s : State) (r : Request) : (s.accept r).call = s.call := rfl
@[simp] theorem accept_ret (s : State) (r : Request) : (s.accept r).ret = s.ret := rfl
@[simp] theorem accept_parked (s : State) (r : Request) : (s.accept r).parked = s.parked := rfl
@[simp] theorem accept_curPw (s : State) (r : Request) : (s.accept r).curPw = s.curPw := rfl
@[simp] theorem accept_gateHeld (s : State) (r : Request) : (s.accept r).gateHeld = s.gateHeld := rfl
@[simp] theorem accept_fault (s : State) (r : Request) : (s.accept r).fault = s.fault := rfl
@[simp] theorem accept_session (s : State) (r : Request) : (s.accept r).session = s.session := rfl
@[simp] theorem accept_transportOpen (s : State) (r : Request) : (s.accept r).transportOpen = s.transportOpen := rfl
@[simp] theorem accept_tx (s : State) (r : Request) : (s.accept r).tx = s.tx := rfl
@[simp] theorem accept_rx (s : State) (r : Request) : (s.accept r).rx = s.rx := rfl
@[simp] theorem accept_now (s : State) (r : Request) : (s.accept r).now = s.now := rfl
@[simp] theorem accept_inputs (s : State) (r : Request) : (s.accept r).inputs = s.inputs := rfl
@[simp] theorem accept_inputCount (s : State) (r : Request) : (s.accept r).inputCount = s.inputCount := rfl

/-! ## `finish` -/

@[simp] theorem finish_cfg (s : State) (v : ResultValue) (e : ErrorCode) : (s.finish v e).cfg = s.cfg := rfl
@[simp] theorem finish_seq (s : State) (v : ResultValue) (e : ErrorCode) :
    (s.finish v e).seq = { s.seq with result := { value := v, ok := decide (e = ErrorCode.none), err := e }, opState := .idle, cancelPending := false } := rfl
@[simp] theorem finish_call (s : State) (v : ResultValue) (e : ErrorCode) : (s.finish v e).call = s.call := rfl
@[simp] theorem finish_ret (s : State) (v : ResultValue) (e : ErrorCode) : (s.finish v e).ret = s.ret := rfl
@[simp] theorem finish_parked (s : State) (v : ResultValue) (e : ErrorCode) : (s.finish v e).parked = s.parked := rfl
@[simp] theorem finish_curPw (s : State) (v : ResultValue) (e : ErrorCode) : (s.finish v e).curPw = s.curPw := rfl
@[simp] theorem finish_gateHeld (s : State) (v : ResultValue) (e : ErrorCode) :
    (s.finish v e).gateHeld = s.gateHeld := rfl
@[simp] theorem finish_fault (s : State) (v : ResultValue) (e : ErrorCode) : (s.finish v e).fault = s.fault := rfl
@[simp] theorem finish_session (s : State) (v : ResultValue) (e : ErrorCode) :
    (s.finish v e).session = s.session := rfl
@[simp] theorem finish_transportOpen (s : State) (v : ResultValue) (e : ErrorCode) :
    (s.finish v e).transportOpen = s.transportOpen := rfl
@[simp] theorem finish_tx (s : State) (v : ResultValue) (e : ErrorCode) : (s.finish v e).tx = s.tx := rfl
@[simp] theorem finish_rx (s : State) (v : ResultValue) (e : ErrorCode) : (s.finish v e).rx = s.rx := rfl
@[simp] theorem finish_now (s : State) (v : ResultValue) (e : ErrorCode) : (s.finish v e).now = s.now := rfl
@[simp] theorem finish_inputs (s : State) (v : ResultValue) (e : ErrorCode) : (s.finish v e).inputs = s.inputs := rfl
@[simp] theorem finish_inputCount (s : State) (v : ResultValue) (e : ErrorCode) :
    (s.finish v e).inputCount = s.inputCount := rfl

/-! ## `raise` -/

@[simp] theorem raise_cfg (s : State) (v : ResultValue) (e : ErrorCode) : (s.raise v e).cfg = s.cfg := rfl
@[simp] theorem raise_seq (s : State) (v : ResultValue) (e : ErrorCode) :
    (s.raise v e).seq = { s.seq with supState := .idle, rsmState := .idle, result := { value := v, ok := decide (e = ErrorCode.none), err := e }, opState := .idle, cancelPending := false } := rfl
@[simp] theorem raise_call (s : State) (v : ResultValue) (e : ErrorCode) : (s.raise v e).call = s.call := rfl
@[simp] theorem raise_ret (s : State) (v : ResultValue) (e : ErrorCode) : (s.raise v e).ret = s.ret := rfl
@[simp] theorem raise_parked (s : State) (v : ResultValue) (e : ErrorCode) : (s.raise v e).parked = s.parked := rfl
@[simp] theorem raise_curPw (s : State) (v : ResultValue) (e : ErrorCode) : (s.raise v e).curPw = s.curPw := rfl
@[simp] theorem raise_gateHeld (s : State) (v : ResultValue) (e : ErrorCode) :
    (s.raise v e).gateHeld = s.gateHeld := rfl
@[simp] theorem raise_fault (s : State) (v : ResultValue) (e : ErrorCode) : (s.raise v e).fault = s.fault := rfl
@[simp] theorem raise_session (s : State) (v : ResultValue) (e : ErrorCode) :
    (s.raise v e).session = s.session := rfl
@[simp] theorem raise_transportOpen (s : State) (v : ResultValue) (e : ErrorCode) :
    (s.raise v e).transportOpen = s.transportOpen := rfl
@[simp] theorem raise_tx (s : State) (v : ResultValue) (e : ErrorCode) : (s.raise v e).tx = s.tx := rfl
@[simp] theorem raise_rx (s : State) (v : ResultValue) (e : ErrorCode) : (s.raise v e).rx = s.rx := rfl
@[simp] theorem raise_now (s : State) (v : ResultValue) (e : ErrorCode) : (s.raise v e).now = s.now := rfl
@[simp] theorem raise_inputs (s : State) (v : ResultValue) (e : ErrorCode) : (s.raise v e).inputs = s.inputs := rfl
@[simp] theorem raise_inputCount (s : State) (v : ResultValue) (e : ErrorCode) :
    (s.raise v e).inputCount = s.inputCount := rfl

/-! ## `takeGate` -/

@[simp] theorem takeGate_cfg (s : State) : (s.takeGate).cfg = s.cfg := rfl
@[simp] theorem takeGate_seq (s : State) : (s.takeGate).seq = s.seq := rfl
@[simp] theorem takeGate_call (s : State) : (s.takeGate).call = s.call := rfl
@[simp] theorem takeGate_ret (s : State) : (s.takeGate).ret = s.ret := rfl
@[simp] theorem takeGate_parked (s : State) : (s.takeGate).parked = s.parked := rfl
@[simp] theorem takeGate_curPw (s : State) : (s.takeGate).curPw = s.curPw := rfl
@[simp] theorem takeGate_gateHeld (s : State) : (s.takeGate).gateHeld = true := rfl
@[simp] theorem takeGate_fault (s : State) : (s.takeGate).fault = s.fault := rfl
@[simp] theorem takeGate_session (s : State) : (s.takeGate).session = s.session := rfl
@[simp] theorem takeGate_transportOpen (s : State) : (s.takeGate).transportOpen = s.transportOpen := rfl
@[simp] theorem takeGate_tx (s : State) : (s.takeGate).tx = s.tx := rfl
@[simp] theorem takeGate_rx (s : State) : (s.takeGate).rx = s.rx := rfl
@[simp] theorem takeGate_now (s : State) : (s.takeGate).now = s.now := rfl
@[simp] theorem takeGate_inputs (s : State) : (s.takeGate).inputs = s.inputs := rfl
@[simp] theorem takeGate_inputCount (s : State) : (s.takeGate).inputCount = s.inputCount := rfl

/-! ## `releaseGate` -/

@[simp] theorem releaseGate_cfg (s : State) : (s.releaseGate).cfg = s.cfg := rfl
@[simp] theorem releaseGate_seq (s : State) : (s.releaseGate).seq = s.seq := rfl
@[simp] theorem releaseGate_call (s : State) : (s.releaseGate).call = s.call := rfl
@[simp] theorem releaseGate_ret (s : State) : (s.releaseGate).ret = s.ret := rfl
@[simp] theorem releaseGate_parked (s : State) : (s.releaseGate).parked = s.parked := rfl
@[simp] theorem releaseGate_curPw (s : State) : (s.releaseGate).curPw = s.curPw := rfl
@[simp] theorem releaseGate_gateHeld (s : State) : (s.releaseGate).gateHeld = false := rfl
@[simp] theorem releaseGate_fault (s : State) : (s.releaseGate).fault = s.fault := rfl
@[simp] theorem releaseGate_session (s : State) : (s.releaseGate).session = s.session := rfl
@[simp] theorem releaseGate_transportOpen (s : State) : (s.releaseGate).transportOpen = s.transportOpen := rfl
@[simp] theorem releaseGate_tx (s : State) : (s.releaseGate).tx = s.tx := rfl
@[simp] theorem releaseGate_rx (s : State) : (s.releaseGate).rx = s.rx := rfl
@[simp] theorem releaseGate_now (s : State) : (s.releaseGate).now = s.now := rfl
@[simp] theorem releaseGate_inputs (s : State) : (s.releaseGate).inputs = s.inputs := rfl
@[simp] theorem releaseGate_inputCount (s : State) : (s.releaseGate).inputCount = s.inputCount := rfl

/-! ## `noteCancel` -/

@[simp] theorem noteCancel_cfg (s : State) : (s.noteCancel).cfg = s.cfg := rfl
@[simp] theorem noteCancel_seq (s : State) :
    (s.noteCancel).seq = { s.seq with cancelPending := s.seq.cancelPending || s.cancelAsserted } := rfl
@[simp] theorem noteCancel_call (s : State) : (s.noteCancel).call = s.call := rfl
@[simp] theorem noteCancel_ret (s : State) : (s.noteCancel).ret = s.ret := rfl
@[simp] theorem noteCancel_parked (s : State) : (s.noteCancel).parked = s.parked := rfl
@[simp] theorem noteCancel_curPw (s : State) : (s.noteCancel).curPw = s.curPw := rfl
@[simp] theorem noteCancel_gateHeld (s : State) : (s.noteCancel).gateHeld = s.gateHeld := rfl
@[simp] theorem noteCancel_fault (s : State) : (s.noteCancel).fault = s.fault := rfl
@[simp] theorem noteCancel_session (s : State) : (s.noteCancel).session = s.session := rfl
@[simp] theorem noteCancel_transportOpen (s : State) : (s.noteCancel).transportOpen = s.transportOpen := rfl
@[simp] theorem noteCancel_tx (s : State) : (s.noteCancel).tx = s.tx := rfl
@[simp] theorem noteCancel_rx (s : State) : (s.noteCancel).rx = s.rx := rfl
@[simp] theorem noteCancel_now (s : State) : (s.noteCancel).now = s.now := rfl
@[simp] theorem noteCancel_inputs (s : State) : (s.noteCancel).inputs = s.inputs := rfl
@[simp] theorem noteCancel_inputCount (s : State) : (s.noteCancel).inputCount = s.inputCount := rfl

/-! ## `endExchange` -/

@[simp] theorem endExchange_cfg (s : State) : (s.endExchange).cfg = s.cfg := rfl
@[simp] theorem endExchange_seq (s : State) : (s.endExchange).seq = s.seq.rsmFinish := rfl
@[simp] theorem endExchange_call (s : State) : (s.endExchange).call = s.call := rfl
@[simp] theorem endExchange_ret (s : State) : (s.endExchange).ret = s.ret := rfl
@[simp] theorem endExchange_parked (s : State) : (s.endExchange).parked = s.parked := rfl
@[simp] theorem endExchange_curPw (s : State) : (s.endExchange).curPw = s.curPw := rfl
@[simp] theorem endExchange_gateHeld (s : State) : (s.endExchange).gateHeld = false := rfl
@[simp] theorem endExchange_fault (s : State) : (s.endExchange).fault = s.fault := rfl
@[simp] theorem endExchange_session (s : State) : (s.endExchange).session = s.session := rfl
@[simp] theorem endExchange_transportOpen (s : State) : (s.endExchange).transportOpen = s.transportOpen := rfl
@[simp] theorem endExchange_tx (s : State) : (s.endExchange).tx = s.tx := rfl
@[simp] theorem endExchange_rx (s : State) : (s.endExchange).rx = s.rx := rfl
@[simp] theorem endExchange_now (s : State) : (s.endExchange).now = s.now := rfl
@[simp] theorem endExchange_inputs (s : State) : (s.endExchange).inputs = s.inputs := rfl
@[simp] theorem endExchange_inputCount (s : State) : (s.endExchange).inputCount = s.inputCount := rfl

/-! ## `blockReset` -/

@[simp] theorem blockReset_cfg (s : State) : (s.blockReset).cfg = s.cfg := rfl
@[simp] theorem blockReset_seq (s : State) : (s.blockReset).seq = Sequencer.reset := rfl
@[simp] theorem blockReset_call (s : State) : (s.blockReset).call = s.call := rfl
@[simp] theorem blockReset_ret (s : State) : (s.blockReset).ret = s.ret := rfl
@[simp] theorem blockReset_parked (s : State) :
    (s.blockReset).parked = s.parked.map (fun t => { t with seq := Sequencer.reset }) := rfl
@[simp] theorem blockReset_curPw (s : State) : (s.blockReset).curPw = [] := rfl
@[simp] theorem blockReset_gateHeld (s : State) : (s.blockReset).gateHeld = false := rfl
@[simp] theorem blockReset_fault (s : State) : (s.blockReset).fault = none := rfl
@[simp] theorem blockReset_session (s : State) : (s.blockReset).session = s.session := rfl
@[simp] theorem blockReset_transportOpen (s : State) : (s.blockReset).transportOpen = s.transportOpen := rfl
@[simp] theorem blockReset_tx (s : State) : (s.blockReset).tx = s.tx := rfl
@[simp] theorem blockReset_rx (s : State) : (s.blockReset).rx = s.rx := rfl
@[simp] theorem blockReset_now (s : State) : (s.blockReset).now = s.now := rfl
@[simp] theorem blockReset_inputs (s : State) : (s.blockReset).inputs = s.inputs := rfl
@[simp] theorem blockReset_inputCount (s : State) : (s.blockReset).inputCount = s.inputCount := rfl

/-! ## `powerOn` -/

@[simp] theorem powerOn_cfg (s : State) : (s.powerOn).cfg = s.cfg := rfl
@[simp] theorem powerOn_seq (s : State) : (s.powerOn).seq = Sequencer.reset := rfl
@[simp] theorem powerOn_call (s : State) : (s.powerOn).call = .idle := rfl
@[simp] theorem powerOn_ret (s : State) : (s.powerOn).ret = Thread.reset.ret := rfl
@[simp] theorem powerOn_parked (s : State) : (s.powerOn).parked = s.parked.map (fun _ => Thread.reset) := rfl
@[simp] theorem powerOn_curPw (s : State) : (s.powerOn).curPw = [] := rfl
@[simp] theorem powerOn_gateHeld (s : State) : (s.powerOn).gateHeld = false := rfl
@[simp] theorem powerOn_fault (s : State) : (s.powerOn).fault = none := rfl
@[simp] theorem powerOn_session (s : State) : (s.powerOn).session = Session.reset := rfl
@[simp] theorem powerOn_transportOpen (s : State) : (s.powerOn).transportOpen = s.transportOpen := rfl
@[simp] theorem powerOn_tx (s : State) : (s.powerOn).tx = s.tx := rfl
@[simp] theorem powerOn_rx (s : State) : (s.powerOn).rx = s.rx := rfl
@[simp] theorem powerOn_now (s : State) : (s.powerOn).now = s.now := rfl
@[simp] theorem powerOn_inputs (s : State) : (s.powerOn).inputs = s.inputs := rfl
@[simp] theorem powerOn_inputCount (s : State) : (s.powerOn).inputCount = s.inputCount := rfl

/-! ## `closeSession` -/

@[simp] theorem closeSession_cfg (s : State) : (s.closeSession).cfg = s.cfg := rfl
@[simp] theorem closeSession_seq (s : State) : (s.closeSession).seq = Sequencer.reset := rfl
@[simp] theorem closeSession_call (s : State) : (s.closeSession).call = s.call := rfl
@[simp] theorem closeSession_ret (s : State) : (s.closeSession).ret = s.ret := rfl
@[simp] theorem closeSession_parked (s : State) :
    (s.closeSession).parked = s.parked.map (fun t => { t with seq := Sequencer.reset }) := rfl
@[simp] theorem closeSession_curPw (s : State) : (s.closeSession).curPw = [] := rfl
@[simp] theorem closeSession_gateHeld (s : State) : (s.closeSession).gateHeld = false := rfl
@[simp] theorem closeSession_fault (s : State) : (s.closeSession).fault = none := rfl
@[simp] theorem closeSession_session (s : State) : (s.closeSession).session = Session.reset := rfl
@[simp] theorem closeSession_transportOpen (s : State) : (s.closeSession).transportOpen = false := rfl
@[simp] theorem closeSession_tx (s : State) : (s.closeSession).tx = s.tx := rfl
@[simp] theorem closeSession_rx (s : State) : (s.closeSession).rx = s.rx := rfl
@[simp] theorem closeSession_now (s : State) : (s.closeSession).now = s.now := rfl
@[simp] theorem closeSession_inputs (s : State) : (s.closeSession).inputs = s.inputs := rfl
@[simp] theorem closeSession_inputCount (s : State) : (s.closeSession).inputCount = s.inputCount := rfl

end Sys2Proof.Machine
end

