-- ==== Sys2Proof/Laws/Machines.lean ====
section
/-! SUPPORT. What each shared operation can do, said once: a command's meaning is the shared operation at the spec's
tables; every step of an operation is one of a few updates; every step of the machine is one of those, a turn, a reset, or
a host's move. Later proofs cite these and do not unfold the operations. -/

namespace Sys2Proof.Machine

/-! ## A command's meaning -/

/-- The row of the spec's tables (R97, R298, R170, R186) for a command. -/
def specMeaning (cfg : Config) (i : Instr) : CommandMeaning :=
  { reply := specReply cfg i, timeoutMs := specTimeout cfg i, decode := fun bs => specDecode cfg bs i
    failure := specDefault i }

theorem exec_eq_operate (i : Instr) (s : State) : exec i s = operate i (specMeaning s.cfg i) s := by
  cases i <;> rfl

theorem operate_next {i : Instr} {m : CommandMeaning} {s t : State} (h : operate i m s = .next t) :
    s.fault = none ∧ t = s.operateStep i m := by
  unfold operate at h
  split at h
  · cases h
  · exact ⟨‹_›, by cases h; rfl⟩

theorem operate_of_noFault {i : Instr} {m : CommandMeaning} {s : State} (h : s.fault = none) :
    operate i m s = .next (s.operateStep i m) := by
  simp [operate, h]

theorem exec_next {i : Instr} {s t : State} (h : exec i s = .next t) :
    s.fault = none ∧ t = s.operateStep i (specMeaning s.cfg i) :=
  operate_next (exec_eq_operate i s ▸ h)

theorem exec_of_noFault {i : Instr} {s : State} (h : s.fault = none) :
    exec i s = .next (s.operateStep i (specMeaning s.cfg i)) := by
  rw [exec_eq_operate, operate_of_noFault h]

/-! ## The read step -/

theorem rsmStep_cases (s : State) :
    (s.rx ≠ [] ∧ s.overflows s.rx.length = true ∧
      s.rsmStep = { s with gateHeld := false, fault := some .bufferOverflow, seq := s.seq.rsmFinish }) ∨
    (s.rx ≠ [] ∧ s.overflows s.rx.length = false ∧
      s.rsmStep = { s with rx := [], seq := (s.seq.rsmTake s.rx).rsmExit }) ∨
    (s.rx = [] ∧ s.rsmStep = { s with seq := s.seq.rsmSleep.rsmExit }) := by
  by_cases h : s.rx = []
  · right; right; simp [State.rsmStep, State.rxAvail, h]
  · have hl : 0 < s.rx.length := List.length_pos_iff.mpr h
    by_cases ho : s.overflows s.rx.length = true
    · left; refine ⟨h, ho, ?_⟩
      simp [State.rsmStep, State.rxAvail, hl, ho, State.releaseGate]
    · right; left; refine ⟨h, by simpa using ho, ?_⟩
      simp [State.rsmStep, State.rxAvail, hl, ho, State.rxDrop, State.rxFront]

/-- The exits only ever change the state of the read. -/
theorem rsmExit_cases (q : Sequencer) :
    q.rsmExit = q ∨ q.rsmExit = { q with rsmState := .satisfied } ∨ q.rsmExit = { q with rsmState := .timedOut } := by
  unfold Sequencer.rsmExit
  split_ifs <;> simp

/-! ## The exchange -/

/-- A started exchange: the command is written and its read accumulates under the gate. -/
def State.exchangeStarted (i : Instr) (expected : Int) (timeoutMs : Nat) (s : State) : State :=
  { s with tx := s.tx ++ encode s.cfg i, gateHeld := true, seq := s.seq.rsmStart expected timeoutMs }

/-- An exchange without a reply: the command is written, the Response is `([], true)`. -/
def State.exchangeDone (i : Instr) (s : State) : State :=
  { s with tx := s.tx ++ encode s.cfg i, gateHeld := false, seq := s.seq.respond [] true }

/-- A failed write: its first part, the fault, and the gate free. -/
def State.exchangeFailed (i : Instr) (k : Nat) (s : State) : State :=
  { s with tx := s.tx ++ (encode s.cfg i).take k, gateHeld := false, fault := some .transportFault }

theorem beginExchange_failed {i : Instr} {reply : ReplyKind} {t k : Nat} {s : State}
    (hw : s.now.writeFault = some k) : s.beginExchange i reply t = s.exchangeFailed i k := by
  simp [State.beginExchange, State.txWrite, State.takeGate, State.releaseGate, State.exchangeFailed, hw]

theorem beginExchange_none {i : Instr} {t : Nat} {s : State} (hf : s.fault = none) (hw : s.now.writeFault = none) :
    s.beginExchange i .none t = s.exchangeDone i := by
  simp [State.beginExchange, State.txWrite, State.takeGate, State.releaseGate, State.exchangeDone, hw, hf]

theorem beginExchange_reply {i : Instr} {reply : ReplyKind} {t : Nat} {s : State} (hf : s.fault = none)
    (hw : s.now.writeFault = none) (hr : reply ≠ .none) :
    s.beginExchange i reply t = s.exchangeStarted i reply.expected t := by
  cases reply <;> simp_all [State.beginExchange, State.txWrite, State.takeGate, State.exchangeStarted]

theorem attemptCommand_failed {i : Instr} {m : CommandMeaning} {s : State} {k : Nat} (hg : s.gateHeld = false)
    (hw : s.now.writeFault = some k) : s.attemptCommand i m = s.exchangeFailed i k := by
  have := fun r => beginExchange_failed (i := i) (reply := r) (t := m.timeoutMs) hw
  cases hr : m.reply <;> simp [State.attemptCommand, hg, hr, this, State.exchangeFailed]

/-- One attempt at a command: it waits, faults, completes without a reply, or starts its read. -/
theorem attemptCommand_cases {i : Instr} {m : CommandMeaning} {s : State} (hf : s.fault = none) :
    (s.gateHeld = true ∧ s.attemptCommand i m = s) ∨
    (s.gateHeld = false ∧ ∃ k, s.attemptCommand i m = s.exchangeFailed i k) ∨
    (s.gateHeld = false ∧ m.reply = .none ∧ s.attemptCommand i m = (s.exchangeDone i).finish .unit .none) ∨
    (s.gateHeld = false ∧ m.reply ≠ .none ∧
      s.attemptCommand i m = s.exchangeStarted i m.reply.expected m.timeoutMs) := by
  by_cases hg : s.gateHeld = true
  · exact .inl ⟨hg, by simp [State.attemptCommand, hg]⟩
  have hg' : s.gateHeld = false := by simpa using hg
  right
  cases hw : s.now.writeFault with
  | some k =>
    exact .inl ⟨hg', k, attemptCommand_failed hg' hw⟩
  | none =>
    right
    by_cases hr : m.reply = .none
    · refine .inl ⟨hg', hr, ?_⟩
      have := beginExchange_none (i := i) (t := m.timeoutMs) hf hw
      simp [State.attemptCommand, hg', hr, this, State.exchangeDone, hf]
    · refine .inr ⟨hg', hr, ?_⟩
      have := beginExchange_reply (i := i) (t := m.timeoutMs) hf hw hr
      cases h : m.reply <;> simp_all [State.attemptCommand]

/-! ## The supervisor -/

/-- The verification of a round trip carries the three bytes kept at the start. -/
theorem verification_of {q : Sequencer} {a b c : Byte} (h : q.syncPw = (a, b, c)) : q.verification = .verifyPassword a b c := by
  rw [Sequencer.verification, h]

theorem roundTrip_cases {s : State} (hf : s.fault = none) :
    (s.gateHeld = true ∧ s.roundTrip = s) ∨
    (s.gateHeld = false ∧ ∃ k, s.roundTrip = s.exchangeFailed s.seq.verification k) ∨
    (s.gateHeld = false ∧ s.roundTrip = s.exchangeStarted s.seq.verification 1 s.cfg.timeoutDefaultMs) := by
  by_cases hg : s.gateHeld = true
  · exact .inl ⟨hg, by simp [State.roundTrip, hg]⟩
  have hg' : s.gateHeld = false := by simpa using hg
  right
  simp only [State.roundTrip, hg', Bool.false_eq_true, if_false, true_and]
  cases hw : s.now.writeFault with
  | some k => exact .inl ⟨k, beginExchange_failed hw⟩
  | none => exact .inr (beginExchange_reply (reply := .fixed 1) hf hw (by simp))

theorem resyncStart_cases (v : ResultValue) (s : State) :
    (encodePassword s.curPw = none ∧ s.resyncStart v =
      ({ s with seq := { s.seq with attemptCnt := 0 } } : State).raise v .invalidPassword) ∨
    (∃ p, encodePassword s.curPw = some p ∧
      s.resyncStart v = { s with seq := { s.seq with attemptCnt := 1, syncPw := p, supState := .attempt } }) := by
  cases hp : encodePassword s.curPw with
  | none => exact .inl ⟨rfl, by simp [State.resyncStart, hp]⟩
  | some p => exact .inr ⟨p, rfl, by simp [State.resyncStart, Sequencer.beginAttempt, hp]⟩

theorem roundTripEnd_cases (s : State) :
    (s.seq.resp.ok = true ∧ s.roundTripEnd = { s with seq :=
      { s.seq.latchAuth (decodeBool s.cfg (replyByte s.seq.resp.bytes 0)) with supState := .synced } }) ∨
    (s.seq.resp.ok = false ∧ s.seq.attemptCnt = 10 ∧
      s.roundTripEnd = { s with seq := { s.seq.clearAuth with supState := .failed } }) ∨
    (s.seq.resp.ok = false ∧ s.seq.attemptCnt ≠ 10 ∧
      s.roundTripEnd = { s with seq := { s.seq with supState := .sleeping } }) := by
  unfold State.roundTripEnd
  by_cases h : s.seq.resp.ok = true
  · simp [h]
  · by_cases h2 : s.seq.attemptCnt = 10 <;> simp [h, h2, Config.syncMaxAttempts]

/-! ## Cancel -/

theorem noteCancel_of_noPort {s : State} (h : s.cfg.hasCancel = false) : s.noteCancel = s := by
  simp [State.noteCancel, State.cancelAsserted, h]

end Sys2Proof.Machine
end

