-- ==== Sys2Proof/Laws/Steps.lean ====
section
/-! SUPPORT. What one step of the machine can be: a reset, a turn of the requesters, a cancel, a step of the operation in
progress, a host's move, or the Session's act. Later proofs take a step apart with these and do not unfold `step`. -/

namespace Sys2Proof.Machine

/-- The outcome of a chosen step. -/
def Plan.answer : Plan → Host.Outcome State Fault Refusal
  | .run i s => exec i s
  | .outcome o => o

@[simp] theorem Plan.answer_run (i : Instr) (s : State) : (Plan.run i s).answer = exec i s := rfl
@[simp] theorem Plan.answer_outcome (o : Host.Outcome State Fault Refusal) : (Plan.outcome o).answer = o := rfl
@[simp] theorem Plan.answer_next (s : State) : (Plan.next s).answer = .next s := rfl

theorem step_eq_answer (s : State) : step s = s.plan.answer := by
  unfold step
  cases s.plan <;> rfl

/-! ## The outermost choice -/

theorem step_of_reset {s : State} (h : s.nextInput.move = .reset) : step s = .next s.sample.powerOn := by
  simp [step_eq_answer, State.plan, h]

theorem step_of_fault {s : State} {f : Fault} (hf : s.fault = some f) (h : s.nextInput.move ≠ .reset) :
    step s = .fault f := by
  simp only [step_eq_answer, State.plan]
  cases hm : s.nextInput.move <;> simp_all

theorem step_of_turn {s : State} {k : Nat} (hf : s.fault = none) (h : s.nextInput.move = .turn k) :
    step s = .next (s.sample.switchTo k) := by
  simp [step_eq_answer, State.plan, h, hf]

theorem step_of_thread {s : State} (hf : s.fault = none) (hr : s.nextInput.move ≠ .reset)
    (ht : ∀ k, s.nextInput.move ≠ .turn k) : step s = s.sample.threadStep.answer := by
  simp only [step_eq_answer, State.plan]
  cases hm : s.nextInput.move <;> simp_all

theorem step_cases {s t : State} (h : step s = .next t) :
    (s.nextInput.move = .reset ∧ t = s.sample.powerOn) ∨
    (s.fault = none ∧ ∃ k, s.nextInput.move = .turn k ∧ t = s.sample.switchTo k) ∨
    (s.fault = none ∧ s.nextInput.move ≠ .reset ∧ (∀ k, s.nextInput.move ≠ .turn k) ∧
      s.sample.threadStep.answer = .next t) := by
  by_cases hr : s.nextInput.move = .reset
  · rw [step_of_reset hr] at h; cases h; exact .inl ⟨hr, rfl⟩
  right
  cases hf : s.fault with
  | some f => rw [step_of_fault hf hr] at h; cases h
  | none =>
    by_cases ht : ∃ k, s.nextInput.move = .turn k
    · obtain ⟨k, hk⟩ := ht
      rw [step_of_turn hf hk] at h; cases h; exact .inl ⟨rfl, k, hk, rfl⟩
    · have ht' : ∀ k, s.nextInput.move ≠ .turn k := fun k hk => ht ⟨k, hk⟩
      rw [step_of_thread hf hr ht'] at h; exact .inr ⟨rfl, hr, ht', h⟩

/-! ## The operation in progress -/

theorem operation_cases {s t : State} (hf : s.fault = none) (h : s.operation.answer = .next t) :
    (∃ e, s.currentCommand = .error e ∧ t = s.rejectRequest e) ∨
    (s.currentCommand = .ok none ∧ t = s.syncStep) ∨
    (∃ i, s.currentCommand = .ok (some i) ∧ t = s.operateStep i (specMeaning s.cfg i)) := by
  unfold State.operation at h
  cases hc : s.currentCommand with
  | error e => simp only [hc, Plan.answer_next] at h; cases h; exact .inl ⟨e, rfl, rfl⟩
  | ok o =>
    cases o with
    | none => simp only [hc, Plan.answer_next] at h; cases h; exact .inr (.inl ⟨rfl, rfl⟩)
    | some i =>
      simp only [hc, Plan.answer_run, exec_of_noFault hf] at h; cases h; exact .inr (.inr ⟨i, rfl, rfl⟩)

/-- With no fault the operation in progress always takes its next step. -/
theorem operation_answers {s : State} (hf : s.fault = none) : ∃ t, s.operation.answer = .next t := by
  unfold State.operation
  cases s.currentCommand with
  | error e => exact ⟨_, rfl⟩
  | ok o =>
    cases o with
    | none => exact ⟨_, rfl⟩
    | some i => exact ⟨_, exec_of_noFault hf⟩

/-- Only `synchronize` resolves to no command (R99, R242). -/
theorem resolve_none_iff (r : Request) : resolve r = .ok none ↔ r = .synchronize := by
  constructor
  · intro h
    unfold resolve at h
    split at h <;> first | rfl | (split at h <;> simp at h) | simp at h
  · rintro rfl; rfl

theorem currentCommand_none {s : State} (h : s.currentCommand = .ok none) : s.seq.req = .synchronize := by
  unfold State.currentCommand at h
  split_ifs at h with h1 h2
  · exact (resolve_none_iff _).1 h
  · exact h2
  · simp at h

theorem currentCommand_some {s : State} {i : Instr} (h : s.currentCommand = .ok (some i)) :
    s.seq.req ≠ .synchronize := by
  unfold State.currentCommand at h
  split_ifs at h with h1 h2
  · intro hc; rw [hc] at h; simp [resolve] at h
  · simp at h
  · exact h2

theorem currentCommand_error {s : State} {e : ErrorCode} (h : s.currentCommand = .error e) :
    s.seq.opState = .firstTry ∧ s.seq.rsmState = .idle ∧ resolve s.seq.req = .error e := by
  unfold State.currentCommand at h
  split_ifs at h with h1
  exact ⟨h1.1, h1.2, h⟩

/-! ## The Session's acts -/

/-- The state in which the Session acts on the block: the one it presents a request in, or returns. -/
def SessionAct.state : SessionAct → State
  | .present _ s => s
  | .returned s => s

/-- `t` differs from `s` in nothing but what the Session owns: its record and the running public operation's, and the
password register and the transport while the session owns them. -/
def SessionOnly (s t : State) : Prop :=
  t = { s with call := t.call, ret := t.ret, session := t.session, curPw := t.curPw, transportOpen := t.transportOpen }

/-- An act that presents a request changes nothing but what the Session owns; one that returns does so after closing the
session, or not. -/
def SessionAct.Orderly (s : State) (a : SessionAct) : Prop :=
  (∃ r t, a = .present r t ∧ SessionOnly s t) ∨ (∃ t, a = .returned t ∧ SessionOnly s t) ∨
  (∃ t, a = .returned t ∧ SessionOnly s.closeSession t)

theorem SessionAct.orderly_returnCall (v : CallValue) (e : ErrorCode) (s : State) : (s.returnCall v e).Orderly s :=
  .inr (.inl ⟨_, rfl, rfl⟩)

theorem SessionAct.orderly_present (r : Request) (p : CallPhase) (s : State) : (s.present r p).Orderly s :=
  .inl ⟨r, _, rfl, rfl⟩

theorem SessionAct.orderly_failOpen (e : ErrorCode) (s : State) : (s.failOpen e).Orderly s :=
  .inr (.inr ⟨_, rfl, rfl⟩)

theorem callStart_orderly (c : Call) (s : State) : (s.callStart c).Orderly s := by
  cases c <;> simp only [State.callStart, State.callOpen, State.callChangePassword, State.identityField]
  all_goals repeat' split
  all_goals first
    | exact SessionAct.orderly_returnCall _ _ _
    | exact SessionAct.orderly_present _ _ _
    | exact .inl ⟨_, _, rfl, rfl⟩
    | exact .inr (.inr ⟨_, rfl, rfl⟩)

theorem callResume_orderly (s : State) : s.callResume.Orderly s := by
  unfold State.callResume
  simp only [State.openDone]
  repeat' split
  all_goals first
    | exact SessionAct.orderly_returnCall _ _ _
    | exact SessionAct.orderly_present _ _ _
    | exact SessionAct.orderly_failOpen _ _
    | exact .inr (.inl ⟨_, rfl, rfl⟩)

theorem SessionAct.plan_cases {a : SessionAct} {t : State} (h : a.plan.answer = .next t) :
    (∃ r s, a = .present r s ∧ (s.accept r).operation.answer = .next t) ∨ a = .returned t := by
  cases a with
  | present r s => exact .inl ⟨r, s, rfl, h⟩
  | returned s => simp only [SessionAct.plan, Plan.answer_next] at h; cases h; exact .inr rfl

/-! ## The step of the requester whose turn it is -/

/-- With no requester active none is in the middle of `open`. -/
theorem openingElsewhere_of_quiet {s : State} (h : s.quiet = true) : s.openingElsewhere = false := by
  simp only [State.quiet, State.threads, List.all_cons, Bool.and_eq_true, List.all_eq_true] at h
  simp only [State.openingElsewhere, List.any_eq_false]
  intro t ht
  have : t.call = .idle := by simpa using (Bool.and_eq_true_iff.1 (h.2 t ht)).2
  simp [this, CallPhase.opening]

/-- What an idle requester can do with the host's move. -/
theorem idleStep_cases {s t : State} (h : s.idleStep.answer = .next t) :
    (t = s) ∨
    (∃ r, s.now.move = .request r ∧ s.openingElsewhere = false ∧ (s.accept r).operation.answer = .next t) ∨
    (∃ pw, s.now.move = .loadPassword pw ∧ s.hostMayConfigure = true ∧ t = { s with curPw := pw }) ∨
    (∃ o, s.now.move = .setTransport o ∧ s.hostMayConfigure = true ∧ t = { s with transportOpen := o }) ∨
    (∃ c, s.now.move = .call c ∧ (s.callStart c).plan.answer = .next t ∧
      (s.openingElsewhere = false ∨ ∃ p pw, c = .openSession p pw ∧ s.session.isOpen = true) ∧
      ((∃ p pw, c = .openSession p pw) → s.session.isOpen = true ∨ s.quiet = true) ∧
      (c = .closeSession → s.quiet = true)) := by
  unfold State.idleStep at h
  cases hm : s.now.move <;> simp only [hm] at h
  case request r =>
    split_ifs at h with ho
    · cases h; exact .inl rfl
    · exact .inr (.inl ⟨r, rfl, by simpa using ho, h⟩)
  case loadPassword pw =>
    simp only [Plan.answer_next] at h; cases h
    by_cases hq : s.hostMayConfigure = true
    · exact .inr (.inr (.inl ⟨pw, rfl, hq, by simp [hq]⟩))
    · exact .inl (by simp [hq])
  case setTransport o =>
    simp only [Plan.answer_next] at h; cases h
    by_cases hq : s.hostMayConfigure = true
    · exact .inr (.inr (.inr (.inl ⟨o, rfl, hq, by simp [hq]⟩)))
    · exact .inl (by simp [hq])
  case call c =>
    cases c <;> simp only [State.callMove] at h
    case openSession p pw =>
      split_ifs at h with hq
      · have hq' : s.session.isOpen = true ∨ s.quiet = true := by simpa using hq
        exact .inr (.inr (.inr (.inr ⟨_, rfl, h, hq'.symm.imp openingElsewhere_of_quiet (fun ho => ⟨p, pw, rfl, ho⟩),
          fun _ => hq', by simp⟩)))
      · cases h; exact .inl rfl
    case closeSession =>
      split_ifs at h with hq
      · exact .inr (.inr (.inr (.inr ⟨_, rfl, h, .inl (openingElsewhere_of_quiet hq), by simp, fun _ => hq⟩)))
      · cases h; exact .inl rfl
    all_goals
      split_ifs at h with hq
      · cases h; exact .inl rfl
      · exact .inr (.inr (.inr (.inr ⟨_, rfl, h, .inl (by simpa using hq), by simp, by simp⟩)))
  all_goals (simp only [Plan.answer_next] at h; cases h; exact .inl rfl)

theorem threadStep_cases {s t : State} (h : s.threadStep.answer = .next t) :
    (s.seq.busy = true ∧ t = s.noteCancel.cancelOperation) ∨
    (s.seq.busy = true ∧ s.noteCancel.operation.answer = .next t) ∨
    (s.seq.busy = false ∧ s.call = .idle ∧ s.idleStep.answer = .next t) ∨
    (s.seq.busy = false ∧ s.call ≠ .idle ∧ s.callResume.plan.answer = .next t) := by
  unfold State.threadStep at h
  split_ifs at h with hb hc
  · unfold State.busyStep at h
    simp only at h
    split_ifs at h with hx
    · cases h; exact .inl ⟨hb, rfl⟩
    · exact .inr (.inl ⟨hb, h⟩)
  · exact .inr (.inr (.inl ⟨by simpa using hb, hc, h⟩))
  · exact .inr (.inr (.inr ⟨by simpa using hb, hc, h⟩))

/-! ## The turn of the requesters -/

/-- A turn changes nothing but the order of the requesters. -/
theorem switchTo_perm (k : Nat) (s : State) : (s.switchTo k).threads.Perm s.threads := by
  unfold State.switchTo
  cases hk : s.parked[k]? with
  | none => exact .refl _
  | some t =>
    obtain ⟨hlt, rfl⟩ := List.getElem?_eq_some_iff.1 hk
    simp only [State.threads, State.thread]
    rw [List.set_eq_take_append_cons_drop, if_pos hlt]
    conv_rhs => rw [← List.take_append_drop k s.parked, List.drop_eq_getElem_cons hlt]
    refine .trans (List.Perm.cons _ List.perm_middle) ?_
    refine .trans (List.Perm.swap _ _ _) ?_
    exact List.Perm.cons _ List.perm_middle.symm

/-! ## The idle requester's steps -/

/-- An idle block that is presented a request takes its first step. -/
theorem step_request {s : State} {r : Request} (hf : s.fault = none) (hb : s.seq.busy = false) (hc : s.call = .idle)
   (ho : s.openingElsewhere = false) (hm : s.nextInput.move = .request r) : step s = (s.sample.accept r).operation.answer := by
  rw [step_of_thread hf (by simp [hm]) (by simp [hm])]
  have h1 : s.sample.seq.busy = false := hb
  have h2 : s.sample.call = .idle := hc
  have h3 : s.sample.openingElsewhere = false := ho
  have h4 : s.sample.now.move = .request r := hm
  simp only [State.threadStep, h1, h2, State.idleStep, h4, h3, Bool.false_eq_true, if_false, if_true, State.startRequest]

/-- A public operation is called. -/
theorem step_call {s : State} {c : Call} (hf : s.fault = none) (hb : s.seq.busy = false) (hc : s.call = .idle)
   (hm : s.nextInput.move = .call c) : step s = (s.sample.callMove c).answer := by
  rw [step_of_thread hf (by simp [hm]) (by simp [hm])]
  have h1 : s.sample.seq.busy = false := hb
  have h2 : s.sample.call = .idle := hc
  have h4 : s.sample.now.move = .call c := hm
  simp only [State.threadStep, h1, h2, State.idleStep, h4, Bool.false_eq_true, if_false, if_true]

/-- A public operation goes on after a result. -/
theorem step_resume {s : State} (hf : s.fault = none) (hb : s.seq.busy = false) (hc : s.call ≠ .idle)
   (hm : s.nextInput.move ≠ .reset) (hm2 : ∀ k, s.nextInput.move ≠ .turn k) : step s = s.sample.callResume.plan.answer := by
  rw [step_of_thread hf hm hm2]
  have h1 : s.sample.seq.busy = false := hb
  have h2 : ¬ s.sample.call = .idle := hc
  simp only [State.threadStep, h1, h2, Bool.false_eq_true, if_false]

/-! ## Runs -/

/-- The first step of a run. -/
theorem run_step {M : Host.Core} (a : Nat) (s : M.State) {u : M.State} (h : M.step s = .next u) : M.run (a + 1) s = M.run a u := by
  have : M.run (a + 1) s = (match M.step s with | .next s' => M.run a s' | .fault r => .fault r | .refused r => .refused r) := rfl
  rw [this, h]

/-- A run in two parts. -/
theorem run_add {M : Host.Core} (a b : Nat) (s : M.State) {u : M.State} (h : M.run a s = .next u) : M.run (a + b) s = M.run b u := by
  induction a generalizing s with
  | zero => 
    have : s = u := by simpa [Host.Core.run] using h
    subst this; simp
  | succ a ih =>
    rw [show a + 1 + b = (a + b) + 1 by omega]
    have hr : M.run (a + 1) s = (match M.step s with | .next s' => M.run a s' | .fault r => .fault r | .refused r => .refused r) := rfl
    rw [hr] at h
    cases hs : M.step s with
    | next v => rw [hs] at h; rw [run_step _ _ hs]; exact ih v h
    | fault f => simp [hs] at h
    | refused f => simp [hs] at h

end Sys2Proof.Machine
end

