-- ==== Sys2Proof/Laws/Frames.lean ====
section
/-! SUPPORT. The frame of the operations: whatever a step of an operation does, the configuration, the request, the password
register, the Session, the transport's status, the other requesters and the inputs stay as they are. -/

namespace Sys2Proof.Machine

/-- `t` differs from `s` in nothing but what a step of an operation may change: the requester's own registers except its
request, the gate, the fault and the two streams. -/
def OperationOnly (s t : State) : Prop :=
  t = { s with seq := { t.seq with req := s.seq.req }, gateHeld := t.gateHeld, fault := t.fault, tx := t.tx, rx := t.rx }

theorem OperationOnly.refl (s : State) : OperationOnly s s := rfl

theorem OperationOnly.trans {s t u : State} (h : OperationOnly s t) (h' : OperationOnly t u) : OperationOnly s u := by
  unfold OperationOnly at *; rw [h', h]

theorem OperationOnly.call {s t : State} (h : OperationOnly s t) : t.call = s.call := by rw [h]
theorem OperationOnly.req {s t : State} (h : OperationOnly s t) : t.seq.req = s.seq.req := by rw [h]

theorem rsmExit_req (q : Sequencer) : q.rsmExit.req = q.req := by
  rcases rsmExit_cases q with e | e | e <;> rw [e]

theorem rsmFinish_req (q : Sequencer) : q.rsmFinish.req = q.req := by
  unfold Sequencer.rsmFinish; split <;> rfl

/-- A requester's registers, with the request they were left with. -/
theorem Sequencer.with_req {q r : Sequencer} (h : r.req = q.req) : { r with req := q.req } = r := by rw [← h]

theorem beginExchange_frame (i r t s) : OperationOnly s (State.beginExchange i r t s) := by
  unfold State.beginExchange
  cases h : s.now.writeFault <;> simp [State.takeGate, State.txWrite, State.releaseGate, h, OperationOnly]
  cases s.fault <;> cases r <;> simp [Sequencer.respond, Sequencer.rsmStart]

theorem finish_frame (v e s) : OperationOnly s (State.finish v e s) := rfl

theorem raise_frame (v e s) : OperationOnly s (State.raise v e s) := rfl

theorem attemptCommand_frame (i m s) : OperationOnly s (State.attemptCommand i m s) := by
  unfold State.attemptCommand
  split
  · rfl
  · simp only
    split
    · exact (beginExchange_frame _ _ _ _).trans (finish_frame _ _ _)
    all_goals exact beginExchange_frame _ _ _ _

theorem rsmStep_frame (s) : OperationOnly s (State.rsmStep s) := by
  rcases rsmStep_cases s with ⟨_, _, e⟩ | ⟨_, _, e⟩ | ⟨_, e⟩ <;> rw [e] <;>
    simp [OperationOnly, Sequencer.with_req, rsmExit_req, rsmFinish_req, Sequencer.rsmTake, Sequencer.rsmSleep,
      Sequencer.sleep]

theorem endExchange_frame (s) : OperationOnly s (State.endExchange s) := by
  simp only [OperationOnly, State.endExchange, State.releaseGate, Sequencer.with_req (rsmFinish_req _)]

theorem resyncStart_frame (v s) : OperationOnly s (State.resyncStart v s) := by
  rcases resyncStart_cases v s with ⟨_, e⟩ | ⟨_, _, e⟩ <;> rw [e] <;> rfl

theorem roundTripEnd_frame (s) : OperationOnly s (State.roundTripEnd s) := by
  rcases roundTripEnd_cases s with ⟨_, e⟩ | ⟨_, _, e⟩ | ⟨_, _, e⟩ <;> rw [e] <;> rfl

theorem roundTrip_frame (s) : OperationOnly s (State.roundTrip s) := by
  unfold State.roundTrip
  split
  · rfl
  · exact beginExchange_frame _ _ _ _

theorem superviseCommand_frame (v s) : OperationOnly s (State.superviseCommand v s) := by
  unfold State.superviseCommand
  split
  · exact resyncStart_frame _ _
  · exact roundTrip_frame _
  all_goals rfl

theorem afterRead_frame (m s) : OperationOnly s (State.afterRead m s) := by
  unfold State.afterRead
  repeat' split
  all_goals first | rfl | exact roundTripEnd_frame _

theorem firstTry_frame (i m s) : OperationOnly s (State.firstTry i m s) := by
  unfold State.firstTry
  simp only
  split
  · exact OperationOnly.trans (t := { s with seq := { s.seq with opState := .firstTry, cmd := i } }) rfl (attemptCommand_frame _ _ _)
  · rfl

theorem operateStep_frame (i m s) : OperationOnly s (State.operateStep i m s) := by
  unfold State.operateStep
  repeat' split
  · exact rsmStep_frame _
  · exact (endExchange_frame _).trans (afterRead_frame _ _)
  · exact (endExchange_frame _).trans (afterRead_frame _ _)
  · exact firstTry_frame _ _ _
  · exact firstTry_frame _ _ _
  · exact firstTry_frame _ _ _
  · exact superviseCommand_frame _ _
  · exact attemptCommand_frame _ _ _

theorem syncStart_frame (s) : OperationOnly s (State.syncStart s) := by
  unfold State.syncStart
  simp only
  split
  · exact OperationOnly.trans (t := { s with seq := { s.seq with opState := .resync } }) rfl (resyncStart_frame _ _)
  · rfl

theorem syncStep_frame (s) : OperationOnly s (State.syncStep s) := by
  unfold State.syncStep State.superviseBare
  repeat' split
  · exact rsmStep_frame _
  · exact (endExchange_frame _).trans (roundTripEnd_frame _)
  · exact (endExchange_frame _).trans (roundTripEnd_frame _)
  all_goals first
   | exact syncStart_frame _
   | exact resyncStart_frame _ _
   | exact roundTrip_frame _
   | rfl

theorem cancelOperation_frame (s) : OperationOnly s (State.cancelOperation s) := by
  unfold State.cancelOperation State.abandonExchange
  split <;> rfl

theorem rejectRequest_frame (e s) : OperationOnly s (State.rejectRequest e s) := rfl

theorem operation_frame {s t : State} (hf : s.fault = none) (h : s.operation.answer = .next t) : OperationOnly s t := by
  rcases operation_cases hf h with ⟨e, _, rfl⟩ | ⟨_, rfl⟩ | ⟨i, _, rfl⟩
  · rfl
  · exact syncStep_frame _
  · exact operateStep_frame _ _ _

/-- A Session's act either presents a request, which the requester then holds, or returns. -/
theorem SessionAct.plan_call {s t : State} {a : SessionAct} (hf : s.fault = none) (ho : a.Orderly s)
    (ha : a.plan.answer = .next t) :
    (∃ r u, a = .present r u ∧ t.call = u.call ∧ t.seq.req = r) ∨ a = .returned t := by
  rcases SessionAct.plan_cases ha with ⟨r, u, rfl, hop⟩ | rfl
  · have hfu : u.fault = none := by
      rcases ho with ⟨r, u', e, hu⟩ | ⟨u', e, hu⟩ | ⟨u', e, hu⟩ <;> cases e
      rw [hu]; exact hf
    have fr := operation_frame (s := u.accept r) hfu hop
    exact .inl ⟨r, u, rfl, fr.call, fr.req⟩
  · exact .inr rfl

/-- What a step that is no turn does to the public operation of the requester in turn: it ends, it waits on with the same
request, it begins with a request, or it goes on with its next one. -/
theorem step_call_cases {s t : State} (h : step s = .next t) (hn : ∀ k, s.nextInput.move ≠ .turn k) :
    t.call = .idle ∨ (t.call = s.call ∧ t.seq.req = s.seq.req) ∨
    (s.call = .idle ∧ ∃ c r u, s.sample.callStart c = .present r u ∧ t.call = u.call ∧ t.seq.req = r) ∨
    (s.call ≠ .idle ∧ ((∃ r u, s.sample.callResume = .present r u ∧ t.call = u.call ∧ t.seq.req = r) ∨
      s.sample.callResume = .returned t)) := by
  rcases step_cases h with ⟨_, rfl⟩ | ⟨_, k, hk, _⟩ | ⟨hf, _, _, ht⟩
  · exact .inl rfl
  · exact absurd hk (hn k)
  · have hf : s.sample.fault = none := hf
    rcases threadStep_cases ht with ⟨_, rfl⟩ | ⟨_, ha⟩ | ⟨_, hc, hi⟩ | ⟨_, hc, ha⟩
    · have fr := cancelOperation_frame s.sample.noteCancel
      exact .inr (.inl ⟨fr.call, fr.req⟩)
    · have fr := operation_frame (s := s.sample.noteCancel) hf ha
      exact .inr (.inl ⟨fr.call, fr.req⟩)
    · have stay : t.call = s.sample.call → t.call = .idle := fun e => e.trans hc
      rcases idleStep_cases hi with rfl | ⟨r, _, _, ha⟩ | ⟨_, _, _, rfl⟩ | ⟨_, _, _, rfl⟩ | ⟨c, _, ha, _⟩
      · exact .inl (stay rfl)
      · exact .inl (stay (operation_frame (s := s.sample.accept r) hf ha).call)
      · exact .inl (stay rfl)
      · exact .inl (stay rfl)
      · rcases SessionAct.plan_call hf (callStart_orderly c _) ha with ⟨r, u, e, e1, e2⟩ | e
        · exact .inr (.inr (.inl ⟨hc, c, r, u, e, e1, e2⟩))
        · refine .inl ?_
          cases c <;> simp only [State.callStart, State.callOpen, State.callChangePassword, State.identityField,
            State.present, State.returnCall] at e <;> (repeat' split at e) <;> cases e <;> rfl
    · refine .inr (.inr (.inr ⟨hc, ?_⟩))
      rcases SessionAct.plan_call hf (callResume_orderly _) ha with ⟨r, u, e, e1, e2⟩ | e
      · exact .inl ⟨r, u, e, e1, e2⟩
      · exact .inr e

end Sys2Proof.Machine
end

