-- ==== Sys2Proof/Laws/Inputs.lean ====
section
/-! SUPPORT. What an operation reads of the outside during one step is the outcome of a write: the rest of the sampled input,
the inputs still to come and their count pass through it unread. -/

namespace Sys2Proof.Machine

/-- `s` with another record of its inputs. -/
def State.withInputs (now : Input) (inputs : List Input) (count : Nat) (s : State) : State :=
  { s with now := now, inputs := inputs, inputCount := count }

variable {n : Input} {l : List Input} {c : Nat}

theorem rsmStep_withInputs (s : State) : (s.withInputs n l c).rsmStep = s.rsmStep.withInputs n l c := by
  rcases rsmStep_cases s with ⟨h, h', e⟩ | ⟨h, h', e⟩ | ⟨h, e⟩ <;>
    rcases rsmStep_cases (s.withInputs n l c) with ⟨g, g', e'⟩ | ⟨g, g', e'⟩ | ⟨g, e'⟩ <;>
    first
      | (rw [e, e']; rfl)
      | exact absurd h g
      | exact absurd g h
      | (exfalso; exact absurd (h'.symm.trans g') (by simp))

theorem beginExchange_withInputs {s : State} (i : Instr) (r : ReplyKind) (t : Nat)
    (h : n.writeFault = s.now.writeFault) :
    (s.withInputs n l c).beginExchange i r t = (s.beginExchange i r t).withInputs n l c := by
  cases hw : s.now.writeFault <;> rw [hw] at h <;>
    simp only [State.beginExchange, State.txWrite, State.takeGate, State.withInputs, State.releaseGate, h, hw]
  cases s.fault <;> cases r <;> rfl

theorem attemptCommand_withInputs {s : State} (i : Instr) (m : CommandMeaning)
    (h : n.writeFault = s.now.writeFault) :
    (s.withInputs n l c).attemptCommand i m = (s.attemptCommand i m).withInputs n l c := by
  unfold State.attemptCommand
  simp only [beginExchange_withInputs i m.reply m.timeoutMs h]
  have hg : (s.withInputs n l c).gateHeld = s.gateHeld := rfl
  rw [hg]
  cases s.gateHeld
  · simp only [Bool.false_eq_true, if_false]
    have hf : ((s.beginExchange i m.reply m.timeoutMs).withInputs n l c).fault =
        (s.beginExchange i m.reply m.timeoutMs).fault := rfl
    rw [hf]
    cases m.reply <;> cases (s.beginExchange i _ m.timeoutMs).fault <;> rfl
  · rfl

theorem resyncStart_withInputs (s : State) (v : ResultValue) :
    (s.withInputs n l c).resyncStart v = (s.resyncStart v).withInputs n l c := by
  unfold State.resyncStart
  have hp : (s.withInputs n l c).curPw = s.curPw := rfl
  simp only [hp]
  cases encodePassword s.curPw <;> rfl

theorem roundTrip_withInputs {s : State} (h : n.writeFault = s.now.writeFault) :
    (s.withInputs n l c).roundTrip = s.roundTrip.withInputs n l c := by
  unfold State.roundTrip
  have hg : (s.withInputs n l c).gateHeld = s.gateHeld := rfl
  rw [hg]
  split
  · rfl
  · exact beginExchange_withInputs _ _ _ h

theorem roundTripEnd_withInputs (s : State) :
    (s.withInputs n l c).roundTripEnd = s.roundTripEnd.withInputs n l c := by
  unfold State.roundTripEnd
  have hq : (s.withInputs n l c).seq = s.seq := rfl
  rw [hq]
  split
  · rfl
  · split <;> rfl

theorem operateStep_withInputs {s : State} (i : Instr) (m : CommandMeaning) (h : n.writeFault = s.now.writeFault) :
    (s.withInputs n l c).operateStep i m = (s.operateStep i m).withInputs n l c := by
  have hq : (s.withInputs n l c).seq = s.seq := rfl
  have he : (s.withInputs n l c).endExchange = s.endExchange.withInputs n l c := rfl
  have hr : ∀ u : State, (u.withInputs n l c).afterRead m = (u.afterRead m).withInputs n l c := fun u => by
    unfold State.afterRead
    have hu : (u.withInputs n l c).seq = u.seq := rfl
    rw [hu]
    cases u.seq.opState <;> simp only [] <;> first | exact roundTripEnd_withInputs u | (split <;> rfl)
  have hfirst : (s.withInputs n l c).firstTry i m = (s.firstTry i m).withInputs n l c := by
    unfold State.firstTry
    have ht : (s.withInputs n l c).transportOpen = s.transportOpen := rfl
    simp only [ht, hq]
    by_cases hh : s.transportOpen = true
    rotate_left
    · simp only [if_neg hh]; rfl
    · simp only [if_pos hh]
      exact attemptCommand_withInputs
        (s := ({ s with seq := { s.seq with opState := .firstTry, cmd := i } } : State)) i m h
  unfold State.operateStep
  simp only [hq, he, hr, hfirst, rsmStep_withInputs, attemptCommand_withInputs i m h]
  cases s.seq.rsmState <;> simp only []
  cases s.seq.opState <;> simp only []
  unfold State.superviseCommand
  rw [hq]
  cases s.seq.supState <;> simp only []
  · exact resyncStart_withInputs s _
  · exact roundTrip_withInputs h
  all_goals rfl

theorem syncStep_withInputs {s : State} (h : n.writeFault = s.now.writeFault) :
    (s.withInputs n l c).syncStep = s.syncStep.withInputs n l c := by
  have hq : (s.withInputs n l c).seq = s.seq := rfl
  have he : (s.withInputs n l c).endExchange = s.endExchange.withInputs n l c := rfl
  have hstart : (s.withInputs n l c).syncStart = s.syncStart.withInputs n l c := by
    unfold State.syncStart
    have ht : (s.withInputs n l c).transportOpen = s.transportOpen := rfl
    simp only [ht, hq]
    by_cases hh : s.transportOpen = true
    rotate_left
    · simp only [if_neg hh]; rfl
    · simp only [if_pos hh]
      exact resyncStart_withInputs ({ s with seq := { s.seq with opState := .resync } } : State) _
  unfold State.syncStep
  simp only [hq, he, hstart, rsmStep_withInputs, roundTripEnd_withInputs]
  cases s.seq.rsmState <;> simp only []
  cases s.seq.opState <;> simp only []
  unfold State.superviseBare
  rw [hq]
  cases s.seq.supState <;> simp only []
  · exact resyncStart_withInputs s _
  · exact roundTrip_withInputs h
  all_goals rfl

end Sys2Proof.Machine
end

