-- ==== Sys2Proof/Laws/Passwords.lean ====
section
/-! SUPPORT. The password codec both ways: the text of a value in range is six digits that spell it, and encoding that text
gives the value's three bytes; so the request that stands for a command resolves to the command. -/

namespace Sys2Proof.Machine

@[simp] theorem digitCode_toNat (d : Nat) : (digitCode d).toNat = 48 + d % 10 := by
  simp only [digitCode, byteOf, BitVec.toNat_ofNat]
  omega

theorem isDigit_digitCode (d : Nat) : isDigit (digitCode d) = true := by
  simp only [isDigit, digitCode_toNat, Bool.and_eq_true, decide_eq_true_eq]
  omega

/-- The text of a value of at most six digits: its six decimal places. -/
theorem passwordText_eq {v : Nat} (h : v ≤ 999999) :
    passwordText v = [digitCode (v / 100000), digitCode (v / 10000), digitCode (v / 1000), digitCode (v / 100),
      digitCode (v / 10), digitCode v] := by
  have z : (0x30 : Byte) = digitCode 0 := by decide
  have e1 : v / 10 / 10 = v / 100 := by omega
  have e2 : v / 100 / 10 = v / 1000 := by omega
  have e3 : v / 1000 / 10 = v / 10000 := by omega
  have e4 : v / 10000 / 10 = v / 100000 := by omega
  simp only [passwordText, decimalDigits, e1, e2, e3, e4, Config.passwordLen, z]
  by_cases h1 : v < 10
  · have : v / 10 = 0 ∧ v / 100 = 0 ∧ v / 1000 = 0 ∧ v / 10000 = 0 ∧ v / 100000 = 0 := by omega
    simp [h1, this]
  by_cases h2 : v / 10 < 10
  · have : v / 100 = 0 ∧ v / 1000 = 0 ∧ v / 10000 = 0 ∧ v / 100000 = 0 := by omega
    simp [h1, h2, this, List.replicate]
  by_cases h3 : v / 100 < 10
  · have : v / 1000 = 0 ∧ v / 10000 = 0 ∧ v / 100000 = 0 := by omega
    simp [h1, h2, h3, this, List.replicate]
  by_cases h4 : v / 1000 < 10
  · have : v / 10000 = 0 ∧ v / 100000 = 0 := by omega
    simp [h1, h2, h3, h4, this, List.replicate]
  by_cases h5 : v / 10000 < 10
  · have : v / 100000 = 0 := by omega
    simp [h1, h2, h3, h4, h5, this]
  · have h6 : v / 100000 < 10 := by omega
    simp [h1, h2, h3, h4, h5, h6]

/-- Six digits spell their value. -/
theorem decimalValue_six (d0 d1 d2 d3 d4 d5 : Byte) :
    decimalValue [d0, d1, d2, d3, d4, d5] = (d0.toNat - 48) * 100000 + (d1.toNat - 48) * 10000 +
      (d2.toNat - 48) * 1000 + (d3.toNat - 48) * 100 + (d4.toNat - 48) * 10 + (d5.toNat - 48) := by
  simp only [decimalValue, List.foldl_cons, List.foldl_nil]
  omega

theorem validPassword_passwordText {v : Nat} (h : v ≤ 999999) : validPassword (passwordText v) = true := by
  rw [passwordText_eq h]
  simp [validPassword, Config.passwordLen, isDigit_digitCode]

theorem decimalValue_passwordText {v : Nat} (h : v ≤ 999999) : decimalValue (passwordText v) = v := by
  rw [passwordText_eq h, decimalValue_six]
  simp only [digitCode_toNat]
  omega

/-- A valid text encodes to the three low-order bytes of its value. -/
theorem encodePassword_of_valid {pw : Bytes} (hv : validPassword pw = true) (hm : decimalValue pw ≤ 999999) :
    encodePassword pw = some (byteOf (decimalValue pw), byteOf (decimalValue pw / 256),
      byteOf (decimalValue pw / 65536)) := by
  simp [encodePassword, hv, Config.passwordMax, hm]

theorem encodePassword_passwordText {v : Nat} (h : v ≤ 999999) :
    encodePassword (passwordText v) = some (byteOf v, byteOf (v / 256), byteOf (v / 65536)) := by
  have hd := decimalValue_passwordText h
  rw [encodePassword_of_valid (validPassword_passwordText h) (by omega), hd]

/-- One more digit. -/
theorem decimalValue_append (ds : Bytes) (d : Byte) : decimalValue (ds ++ [d]) = 10 * decimalValue ds + (d.toNat - 0x30) := by
  simp [decimalValue]

/-- The digits of a number spell it. -/
theorem decimalValue_decimalDigits {fuel n : Nat} (h : n < 10 ^ fuel) : decimalValue (decimalDigits fuel n) = n := by
  induction fuel generalizing n with
  | zero => simp at h; simp [decimalDigits, decimalValue, h]
  | succ fuel ih =>
    unfold decimalDigits
    split
    · simp only [decimalValue, List.foldl_cons, List.foldl_nil, digitCode_toNat]; omega
    · rw [decimalValue_append, ih (by rw [Nat.pow_succ] at h; omega), digitCode_toNat]; omega

theorem all_isDigit_decimalDigits (fuel n : Nat) : (decimalDigits fuel n).all isDigit = true := by
  induction fuel generalizing n with
  | zero => rfl
  | succ fuel ih => unfold decimalDigits; split <;> simp [isDigit_digitCode]; simpa using ih (n / 10)

/-- How many digits a number has. -/
theorem length_decimalDigits {fuel k n : Nat} (hl : 10 ^ k ≤ n) (hu : n < 10 ^ (k + 1)) (hk : k < fuel) :
    (decimalDigits fuel n).length = k + 1 := by
  induction fuel generalizing k n with
  | zero => omega
  | succ fuel ih =>
    unfold decimalDigits
    cases k with
    | zero => simp only [Nat.zero_add, Nat.pow_one] at hu; simp [hu]
    | succ k =>
      have h1 : ¬ n < 10 := by have := Nat.one_le_pow k 10 (by omega); rw [Nat.pow_succ] at hl; omega
      rw [if_neg h1, List.length_append, ih (k := k) (by rw [Nat.pow_succ] at hl; omega)
        (by rw [Nat.pow_succ] at hu; omega) (by omega)]
      rfl

/-- An encoded password is a well-formed payload: its value is at most 999999. -/
theorem wireValue_of_encodePassword {pw : Bytes} {p : Byte × Byte × Byte} (h : encodePassword pw = some p) :
    wireValue p.1 p.2.1 p.2.2 ≤ 999999 := by
  simp only [encodePassword] at h
  split at h
  · split at h
    · rename_i hm
      cases h
      simp only [Config.passwordMax] at hm
      simp only [wireValue, byteOf, BitVec.toNat_ofNat]
      omega
    · cases h
  · cases h

/-- A text that is not valid has no encoding. -/
theorem encodePassword_of_invalid {pw : Bytes} (hv : validPassword pw = false) : encodePassword pw = none := by
  simp [encodePassword, hv]

theorem byteOf_wireValue (a b c : Byte) : byteOf (wireValue a b c) = a := by
  apply BitVec.eq_of_toNat_eq
  simp only [byteOf, BitVec.toNat_ofNat, wireValue]
  omega

theorem byteOf_wireValue_mid (a b c : Byte) : byteOf (wireValue a b c / 256) = b := by
  apply BitVec.eq_of_toNat_eq
  simp only [byteOf, BitVec.toNat_ofNat, wireValue]
  omega

theorem byteOf_wireValue_high (a b c : Byte) : byteOf (wireValue a b c / 65536) = c := by
  apply BitVec.eq_of_toNat_eq
  simp only [byteOf, BitVec.toNat_ofNat, wireValue]
  omega

theorem encodePassword_wire {a b c : Byte} (h : wireValue a b c ≤ 999999) :
    encodePassword (passwordText (wireValue a b c)) = some (a, b, c) := by
  rw [encodePassword_passwordText h, byteOf_wireValue, byteOf_wireValue_mid, byteOf_wireValue_high]

/-- The request that stands for a command resolves to it (R99, R100, R101). -/
theorem resolve_requestOf {i : Instr} (h : i.wf = true) : resolve (requestOf i) = .ok (some i) := by
  cases i
  case verifyPassword a b c =>
    replace h : wireValue a b c ≤ 999999 := of_decide_eq_true h
    simp [requestOf, resolve, encodePassword_wire h]
  case setPassword a b c =>
    replace h : wireValue a b c ≤ 999999 := of_decide_eq_true h
    simp [requestOf, resolve, encodePassword_wire h]
  all_goals rfl

/-- Every request that resolves to a command has that command's failure value (R186). -/
theorem failureOf_of_resolve {i : Instr} {r : Request} (h : resolve r = .ok (some i)) :
    failureOf r = failureOf (requestOf i) := by
  unfold resolve at h
  split at h
  case h_3 =>
    split at h <;> simp at h
    subst h; rfl
  case h_4 =>
    split at h <;> simp at h
    subst h; rfl
  case h_11 n state =>
    split at h <;> simp at h
    subst h
    rename_i i hi
    unfold relayCommand at hi
    split_ifs at hi <;> simp at hi <;> subst hi <;> rfl
  all_goals first | (simp at h; subst h; rfl) | simp at h

end Sys2Proof.Machine
end

