-- ==== Sys2Proof/Laws/PerInstr.lean ====
section
/-! SUPPORT. Two facts about every command as syntax, one lemma for each command: its opcode is looked up as its own row of
the table (30_encoding.md R96, R98), and the request that stands for it resolves to it (R99). -/

namespace Sys2Proof

/-- The command with a payload of zeros, as the opcode lookup answers it. -/
def Instr.blank : Instr → Instr
  | .verifyPassword _ _ _ => .verifyPassword 0 0 0
  | .setPassword _ _ _ => .setPassword 0 0 0
  | i => i

theorem opcode_injective {cfg : Config} (h : cfg.opcodesDistinct = true) {i j : Instr}
    (he : cfg.opcodeOf i = cfg.opcodeOf j) : i.number = j.number := by
  have hn : cfg.opc.toList.Nodup := of_decide_eq_true h
  have hi : i.number.val < cfg.opc.toList.length := by simp
  have hj : j.number.val < cfg.opc.toList.length := by simp
  refine Fin.ext ((List.Nodup.getElem_inj_iff hn (hi := hi) (hj := hj)).1 ?_)
  simpa [Config.opcodeOf] using he

/-- Under an injective opcode table the first command of the list with a given opcode is the one of that number. -/
theorem commandOf_opcodeOf {cfg : Config} (h : cfg.opcodesDistinct = true) (i : Instr) {j : Instr}
    (hj : Instr.all.find? (fun k => k.number == i.number) = some j) : cfg.commandOf (cfg.opcodeOf i) = some j := by
  rw [← hj]
  unfold Config.commandOf
  congr 1
  funext k
  rw [Bool.eq_iff_iff]
  simp only [beq_iff_eq]
  exact ⟨fun e => opcode_injective h e, fun e => by simp [Config.opcodeOf, e]⟩

namespace Laws.Wire

/-- The command's opcode is looked up as its own row. -/
def Statement (i : Instr) : Prop :=
  ∀ cfg : Config, cfg.opcodesDistinct = true → cfg.commandOf (cfg.opcodeOf i) = some i.blank

theorem getBoardId : Statement .getBoardId := fun _ h => commandOf_opcodeOf h _ rfl
theorem getPassword : Statement .getPassword := fun _ h => commandOf_opcodeOf h _ rfl
theorem verifyPassword (a b c : Byte) : Statement (.verifyPassword a b c) := fun _ h => commandOf_opcodeOf h _ rfl
theorem setPassword (a b c : Byte) : Statement (.setPassword a b c) := fun _ h => commandOf_opcodeOf h _ rfl
theorem getMode : Statement .getMode := fun _ h => commandOf_opcodeOf h _ rfl
theorem setModeLatching : Statement .setModeLatching := fun _ h => commandOf_opcodeOf h _ rfl
theorem setModeMomentary : Statement .setModeMomentary := fun _ h => commandOf_opcodeOf h _ rfl
theorem getStatus : Statement .getStatus := fun _ h => commandOf_opcodeOf h _ rfl
theorem getFirmwareVersion : Statement .getFirmwareVersion := fun _ h => commandOf_opcodeOf h _ rfl
theorem getRelayStates : Statement .getRelayStates := fun _ h => commandOf_opcodeOf h _ rfl
theorem relay1High : Statement .relay1High := fun _ h => commandOf_opcodeOf h _ rfl
theorem relay2High : Statement .relay2High := fun _ h => commandOf_opcodeOf h _ rfl
theorem relay3High : Statement .relay3High := fun _ h => commandOf_opcodeOf h _ rfl
theorem relay4High : Statement .relay4High := fun _ h => commandOf_opcodeOf h _ rfl
theorem relay5High : Statement .relay5High := fun _ h => commandOf_opcodeOf h _ rfl
theorem relay6High : Statement .relay6High := fun _ h => commandOf_opcodeOf h _ rfl
theorem relay7High : Statement .relay7High := fun _ h => commandOf_opcodeOf h _ rfl
theorem relay8High : Statement .relay8High := fun _ h => commandOf_opcodeOf h _ rfl
theorem relay1Low : Statement .relay1Low := fun _ h => commandOf_opcodeOf h _ rfl
theorem relay2Low : Statement .relay2Low := fun _ h => commandOf_opcodeOf h _ rfl
theorem relay3Low : Statement .relay3Low := fun _ h => commandOf_opcodeOf h _ rfl
theorem relay4Low : Statement .relay4Low := fun _ h => commandOf_opcodeOf h _ rfl
theorem relay5Low : Statement .relay5Low := fun _ h => commandOf_opcodeOf h _ rfl
theorem relay6Low : Statement .relay6Low := fun _ h => commandOf_opcodeOf h _ rfl
theorem relay7Low : Statement .relay7Low := fun _ h => commandOf_opcodeOf h _ rfl
theorem relay8Low : Statement .relay8Low := fun _ h => commandOf_opcodeOf h _ rfl
theorem allHigh : Statement .allHigh := fun _ h => commandOf_opcodeOf h _ rfl
theorem allLow : Statement .allLow := fun _ h => commandOf_opcodeOf h _ rfl
theorem getVoltage : Statement .getVoltage := fun _ h => commandOf_opcodeOf h _ rfl
theorem getTempRaw : Statement .getTempRaw := fun _ h => commandOf_opcodeOf h _ rfl
theorem getTempAscii : Statement .getTempAscii := fun _ h => commandOf_opcodeOf h _ rfl

end Laws.Wire

namespace Laws.Fetch

/-- The request that stands for the command resolves to it. -/
def Statement (i : Instr) : Prop :=
  i.wf = true → Machine.resolve (Machine.requestOf i) = .ok (some i)

theorem getBoardId : Statement .getBoardId := Machine.resolve_requestOf
theorem getPassword : Statement .getPassword := Machine.resolve_requestOf
theorem verifyPassword (a b c : Byte) : Statement (.verifyPassword a b c) := Machine.resolve_requestOf
theorem setPassword (a b c : Byte) : Statement (.setPassword a b c) := Machine.resolve_requestOf
theorem getMode : Statement .getMode := Machine.resolve_requestOf
theorem setModeLatching : Statement .setModeLatching := Machine.resolve_requestOf
theorem setModeMomentary : Statement .setModeMomentary := Machine.resolve_requestOf
theorem getStatus : Statement .getStatus := Machine.resolve_requestOf
theorem getFirmwareVersion : Statement .getFirmwareVersion := Machine.resolve_requestOf
theorem getRelayStates : Statement .getRelayStates := Machine.resolve_requestOf
theorem relay1High : Statement .relay1High := Machine.resolve_requestOf
theorem relay2High : Statement .relay2High := Machine.resolve_requestOf
theorem relay3High : Statement .relay3High := Machine.resolve_requestOf
theorem relay4High : Statement .relay4High := Machine.resolve_requestOf
theorem relay5High : Statement .relay5High := Machine.resolve_requestOf
theorem relay6High : Statement .relay6High := Machine.resolve_requestOf
theorem relay7High : Statement .relay7High := Machine.resolve_requestOf
theorem relay8High : Statement .relay8High := Machine.resolve_requestOf
theorem relay1Low : Statement .relay1Low := Machine.resolve_requestOf
theorem relay2Low : Statement .relay2Low := Machine.resolve_requestOf
theorem relay3Low : Statement .relay3Low := Machine.resolve_requestOf
theorem relay4Low : Statement .relay4Low := Machine.resolve_requestOf
theorem relay5Low : Statement .relay5Low := Machine.resolve_requestOf
theorem relay6Low : Statement .relay6Low := Machine.resolve_requestOf
theorem relay7Low : Statement .relay7Low := Machine.resolve_requestOf
theorem relay8Low : Statement .relay8Low := Machine.resolve_requestOf
theorem allHigh : Statement .allHigh := Machine.resolve_requestOf
theorem allLow : Statement .allLow := Machine.resolve_requestOf
theorem getVoltage : Statement .getVoltage := Machine.resolve_requestOf
theorem getTempRaw : Statement .getTempRaw := Machine.resolve_requestOf
theorem getTempAscii : Statement .getTempAscii := Machine.resolve_requestOf

end Laws.Fetch

end Sys2Proof
end

