-- ==== Sys2Proof/Laws/Streams.lean ====
section
/-! SUPPORT. What each operation of the block does to the two byte streams and to model time: one lemma per operation. -/

namespace Sys2Proof.Machine

/-- `t` has sent all of `bytes` since `s`, or, when its write failed, the first part of them (20_memory.md R64). -/
def Sent (bytes : Bytes) (s t : State) : Prop :=
  t.tx = s.tx ++ bytes ∨ (t.fault = some .transportFault ∧ ∃ k, t.tx = s.tx ++ bytes.take k)

/-- The beginning of an exchange sends the command and takes nothing. -/
theorem beginExchange_streams (i r tm) (s : State) :
    (s.beginExchange i r tm).rx = s.rx ∧ Sent (encode s.cfg i) s (s.beginExchange i r tm) ∧
    (s.beginExchange i r tm).seq.sleptMs = s.seq.sleptMs := by
  unfold State.beginExchange Sent
  cases h : s.now.writeFault <;> simp [State.takeGate, State.txWrite, State.releaseGate, h]
  · cases s.fault <;> cases r <;> simp [Sequencer.respond, Sequencer.rsmStart]
  · exact .inr ⟨_, rfl⟩

/-- An attempt at a command sends it or waits. -/
theorem attempt_streams (i m) (s : State) :
    (s.attemptCommand i m).rx = s.rx ∧
    ((s.attemptCommand i m).tx = s.tx ∨ Sent (encode s.cfg i) s (s.attemptCommand i m)) ∧
    (s.attemptCommand i m).seq.sleptMs = s.seq.sleptMs := by
  unfold State.attemptCommand
  split
  · exact ⟨rfl, .inl rfl, rfl⟩
  · simp only
    obtain ⟨h1, h2, h3⟩ := beginExchange_streams i m.reply m.timeoutMs s
    split
    · exact ⟨h1, .inr h2, h3⟩
    all_goals exact ⟨h1, .inr h2, h3⟩

/-- A round trip sends its verification or waits. -/
theorem roundTrip_streams (s : State) :
    s.roundTrip.rx = s.rx ∧
    (s.roundTrip.tx = s.tx ∨ Sent (encode s.cfg s.seq.verification) s s.roundTrip) ∧
    s.roundTrip.seq.sleptMs = s.seq.sleptMs := by
  unfold State.roundTrip
  split
  · exact ⟨rfl, .inl rfl, rfl⟩
  · obtain ⟨h1, h2, h3⟩ := beginExchange_streams s.seq.verification (.fixed 1) s.cfg.timeoutDefaultMs s
    exact ⟨h1, .inr h2, h3⟩

theorem rsmExit_slept (q : Sequencer) : q.rsmExit.sleptMs = q.sleptMs := by
  rcases rsmExit_cases q with e | e | e <;> rw [e]

theorem rsmFinish_slept (q : Sequencer) : q.rsmFinish.sleptMs = q.sleptMs := by
  unfold Sequencer.rsmFinish; split <;> rfl

/-- An operation's step: bytes leave `rx` only in a read; `tx` gets nothing, the command, or the round trip's
verification inside the supervisor; time passes at most once, and then nothing crosses the interface. -/
theorem operateStep_streams (i m) (s : State) :
    let t := s.operateStep i m
    (s.seq.rsmState ≠ .accumulating → t.rx = s.rx) ∧
    (t.tx = s.tx ∨ Sent (encode s.cfg i) s t ∨
      s.seq.opState = .resync ∧ Sent (encode s.cfg s.seq.verification) s t) ∧
    (t.seq.sleptMs = s.seq.sleptMs ∨ (t.seq.sleptMs = s.seq.sleptMs + 10 ∧ t.tx = s.tx ∧ t.rx = s.rx)) := by
  intro t
  cases hr : s.seq.rsmState <;> simp only [State.operateStep, hr, t]
  · cases ho : s.seq.opState <;> simp only []
    case resync =>
      cases hs : s.seq.supState <;> simp only [State.superviseCommand, hs]
      · rcases resyncStart_cases m.failure s with ⟨_, e⟩ | ⟨_, _, e⟩ <;> rw [e] <;> simp
      · obtain ⟨a, b, c⟩ := roundTrip_streams s
        exact ⟨fun _ => a, b.elim .inl (fun b => .inr (.inr ⟨trivial, b⟩)), .inl c⟩
      · simp [State.resyncSleep, Sequencer.beginAttempt, Sequencer.sleep, Config.syncSleepMs]
      · simp
      · simp
    case retry =>
      obtain ⟨a, b, c⟩ := attempt_streams i m s
      exact ⟨fun _ => a, b.elim .inl (fun b => .inr (.inl b)), .inl c⟩
    all_goals
      unfold State.firstTry; simp only
      split
      · obtain ⟨a, b, c⟩ := attempt_streams i m { s with seq := { s.seq with opState := .firstTry, cmd := i } }
        exact ⟨fun _ => a, b.elim .inl (fun b => .inr (.inl b)), .inl c⟩
      · simp
  · rcases rsmStep_cases s with ⟨_, _, e⟩ | ⟨_, _, e⟩ | ⟨_, e⟩ <;> rw [e] <;>
      simp [rsmExit_slept, rsmFinish_slept, Sequencer.rsmTake, Sequencer.rsmSleep, Sequencer.sleep, Config.pollMs]
  all_goals
    unfold State.afterRead
    cases ho : s.endExchange.seq.opState <;> simp only []
    case resync =>
      rcases roundTripEnd_cases s.endExchange with ⟨_, e⟩ | ⟨_, _, e⟩ | ⟨_, _, e⟩ <;> rw [e] <;>
        simp [Sequencer.latchAuth, Sequencer.clearAuth, rsmFinish_slept]
    all_goals split <;> simp [rsmFinish_slept]

/-- The same of the bare resynchronisation. -/
theorem syncStep_streams (s : State) :
    (s.seq.rsmState ≠ .accumulating → s.syncStep.rx = s.rx) ∧
    (s.syncStep.tx = s.tx ∨ Sent (encode s.cfg s.seq.verification) s s.syncStep) ∧
    (s.syncStep.seq.sleptMs = s.seq.sleptMs ∨
      (s.syncStep.seq.sleptMs = s.seq.sleptMs + 10 ∧ s.syncStep.tx = s.tx ∧ s.syncStep.rx = s.rx)) := by
  cases hr : s.seq.rsmState <;> simp only [State.syncStep, hr]
  · have hst : s.syncStart.rx = s.rx ∧ s.syncStart.tx = s.tx ∧ s.syncStart.seq.sleptMs = s.seq.sleptMs := by
      unfold State.syncStart; simp only
      split
      · rcases resyncStart_cases (.bool false) { s with seq := { s.seq with opState := .resync } } with
          ⟨_, e⟩ | ⟨_, _, e⟩ <;> rw [e] <;> simp
      · simp
    cases ho : s.seq.opState <;> simp only []
    case resync =>
      cases hs : s.seq.supState <;> simp only [State.superviseBare, hs]
      · rcases resyncStart_cases (.bool false) s with ⟨_, e⟩ | ⟨_, _, e⟩ <;> rw [e] <;> simp
      · obtain ⟨a, b, c⟩ := roundTrip_streams s
        exact ⟨fun _ => a, b, .inl c⟩
      · simp [State.resyncSleep, Sequencer.beginAttempt, Sequencer.sleep, Config.syncSleepMs]
      · simp
      · simp
    all_goals exact ⟨fun _ => hst.1, .inl hst.2.1, .inl hst.2.2⟩
  · rcases rsmStep_cases s with ⟨_, _, e⟩ | ⟨_, _, e⟩ | ⟨_, e⟩ <;> rw [e] <;>
      simp [rsmExit_slept, rsmFinish_slept, Sequencer.rsmTake, Sequencer.rsmSleep, Sequencer.sleep, Config.pollMs]
  all_goals
    rcases roundTripEnd_cases s.endExchange with ⟨_, e⟩ | ⟨_, _, e⟩ | ⟨_, _, e⟩ <;> rw [e] <;>
      simp [Sequencer.latchAuth, Sequencer.clearAuth, rsmFinish_slept]

end Sys2Proof.Machine
end

