-- ==== Sys2Proof/Tests/Slice0.lean ====
section
/-! SUPPORT. Tests: ill-formed terms the checks refuse, words written out from the formats of 30_encoding.md under the
placeholder `REF_OPC`, one step per command with the vectors of 95_test_vectors.md, and for each obligation with
hypotheses a state and operands that meet them. Expected values are the spec's vectors, whose names stand beside them. -/

namespace Sys2Proof.Tests

open Sys2Proof Sys2Proof.Machine

/-! ## Helpers -/

/-- The state a step goes to. -/
def after : Host.Outcome State Fault Refusal → State
  | .next s => s
  | .fault _ => State.reset
  | .refused _ => State.reset

/-- The step goes to a state. -/
def answered : Host.Outcome State Fault Refusal → Bool
  | .next _ => true
  | .fault _ => false
  | .refused _ => false

theorem next_after {o : Host.Outcome State Fault Refusal} (h : answered o = true) : o = .next (after o) := by
  cases o with
  | next s => rfl
  | fault f => simp [answered] at h
  | refused r => simp [answered] at h

/-- The move is a turn. -/
def isTurn : HostMove → Bool
  | .turn _ => true
  | .nothing | .request _ | .loadPassword _ | .setTransport _ | .cancel | .reset | .call _ => false

theorem not_turn {m : HostMove} (h : isTurn m = false) : ∀ k, m ≠ .turn k := by
  rintro k rfl
  simp [isTurn] at h

/-- "123456". -/
def password : Bytes := [0x31, 0x32, 0x33, 0x34, 0x35, 0x36]

/-- Idle, with an open transport, the password loaded and quiet inputs to come. -/
def ready : State :=
  { State.reset with transportOpen := true, curPw := password, inputs := [Input.quiet, Input.quiet, Input.quiet] }

/-- A request accepted, its first exchange still to begin. -/
def trying : State := { ready with seq := { ready.seq with opState := .firstTry } }

/-- A read in the given states, with the given bytes accumulated, the gate held. -/
def reading (op : OpState) (rsm : RsmState) (acc : Bytes) : State :=
  { ready with gateHeld := true, seq := { ready.seq with opState := op, rsmState := rsm, acc := acc } }

/-- A read in progress. -/
def accumulating (expected : Int) (timeout : Nat) (acc rx : Bytes) : State :=
  let s := reading .firstTry .accumulating acc
  { s with rx := rx, seq := { s.seq with rsmExpected := expected, rsmTimeoutMs := timeout } }

/-- The supervisor between two exchanges. -/
def supervising (sup : SupState) (cnt : Nat) : State :=
  { ready with
    seq := { ready.seq with opState := .resync, supState := sup, attemptCnt := cnt, syncPw := (0x40, 0xE2, 0x01) } }

/-- A round trip's read has ended. -/
def roundTripEnded (rsm : RsmState) (cnt : Nat) (acc : Bytes) : State :=
  let s := reading .resync rsm acc
  { s with seq := { s.seq with supState := .attempt, attemptCnt := cnt, syncPw := (0x40, 0xE2, 0x01) } }

/-- The next input's move. -/
def moved (m : HostMove) (s : State) : State := { s with inputs := [{ Input.quiet with move := m }] }

/-- An open, authenticated session. -/
def opened : State :=
  { ready with session := { isOpen := true, isAuthenticated := true, currentPassword := password,
                            identity := some { boardModel := 8, boardVersion := 2, firmwareVersion := 258,
                                               channelCount := 8 } } }

/-- What a command without a reply writes in its one step, and its result. -/
def wrote (i : Instr) : Bytes × OpResult :=
  let t := after (exec i trying)
  (t.tx, t.seq.result)

/-- What a command with a reply writes in its first step, and the count and timeout its read starts with. -/
def asked (i : Instr) : Bytes × Int × Nat :=
  let t := after (exec i trying)
  (t.tx, t.seq.rsmExpected, t.seq.rsmTimeoutMs)

/-- The value a command reports of a reply. -/
def replied (i : Instr) (reply : Bytes) : ResultValue := (after (exec i (reading .firstTry .satisfied reply))).seq.result.value

/-- The command a table word places, run by the next step after reset: what it writes. -/
def fetched (nbits w : Nat) : Bytes := (after (step (State.reset.withFetchWord nbits w))).tx

/-- The result of a success without a value. -/
def done : OpResult := { value := .unit, ok := true, err := .none }

/-! ## Well-formedness -/

theorem test_wf_password_max : (Instr.verifyPassword 0x3F 0x42 0x0F).wf = true := by decide
theorem test_ill_verifyPassword : (Instr.verifyPassword 0x40 0x42 0x0F).wf = false := by decide
theorem test_ill_setPassword : (Instr.setPassword 0xFF 0xFF 0xFF).wf = false := by decide
theorem test_wf_reference : Config.reference.wf = true := by decide
theorem test_ill_opcodes : ({ Config.reference with opc := Config.refOpc.set 5 0x16 } : Config).opcodesDistinct = false := by decide
theorem test_ill_timeouts : ({ Config.reference with timeoutTempMs := 50 } : Config).wf = false := by decide
theorem test_ill_status_length : ({ Config.reference with rlenStatus := 0 } : Config).wf = false := by decide

/-! ## Decoding: the words of R91 and R92 with the bytes of K1 to K31 -/

theorem test_decode_identity : decodeTableWord 8 0x10 = some .getBoardId ∧ decodeTableWord 8 0x11 = some .getPassword ∧
    decodeTableWord 32 0x01E24012 = some (.verifyPassword 0x40 0xE2 0x01) ∧
    decodeTableWord 32 0x00006F13 = some (.setPassword 0x6F 0x00 0x00) := by decide
theorem test_decode_mode : decodeTableWord 8 0x14 = some .getMode ∧ decodeTableWord 8 0x15 = some .setModeLatching ∧
    decodeTableWord 8 0x16 = some .setModeMomentary := by decide
theorem test_decode_queries : decodeTableWord 8 0x17 = some .getStatus ∧
    decodeTableWord 8 0x18 = some .getFirmwareVersion ∧ decodeTableWord 8 0x19 = some .getRelayStates := by decide
theorem test_decode_high : decodeTableWord 8 0x21 = some .relay1High ∧ decodeTableWord 8 0x22 = some .relay2High ∧
    decodeTableWord 8 0x23 = some .relay3High ∧ decodeTableWord 8 0x24 = some .relay4High ∧
    decodeTableWord 8 0x25 = some .relay5High ∧ decodeTableWord 8 0x26 = some .relay6High ∧
    decodeTableWord 8 0x27 = some .relay7High ∧ decodeTableWord 8 0x28 = some .relay8High := by decide
theorem test_decode_low : decodeTableWord 8 0x31 = some .relay1Low ∧ decodeTableWord 8 0x32 = some .relay2Low ∧
    decodeTableWord 8 0x33 = some .relay3Low ∧ decodeTableWord 8 0x34 = some .relay4Low ∧
    decodeTableWord 8 0x35 = some .relay5Low ∧ decodeTableWord 8 0x36 = some .relay6Low ∧
    decodeTableWord 8 0x37 = some .relay7Low ∧ decodeTableWord 8 0x38 = some .relay8Low := by decide
theorem test_decode_all : decodeTableWord 8 0x20 = some .allHigh ∧ decodeTableWord 8 0x30 = some .allLow := by decide
theorem test_decode_telemetry : decodeTableWord 8 0x1A = some .getVoltage ∧ decodeTableWord 8 0x1B = some .getTempRaw ∧
    decodeTableWord 8 0x1C = some .getTempAscii := by decide

theorem test_refuse_empty : decode Config.reference [] = .error .empty := by decide
theorem test_refuse_unknown : decode Config.reference [0x40] = .error (.unknownOpcode 0x40) := by decide
theorem test_refuse_short : decode Config.reference [0x12, 0x40, 0xE2] = .error .shortPayload := by decide
theorem test_refuse_large : decode Config.reference [0x13, 0x40, 0x42, 0x0F] = .error .passwordTooLarge := by decide

theorem test_fetch_relay3High : fetched 8 0x23 = [0x23] := by decide
theorem test_fetch_verifyPassword : fetched 32 0x01E24012 = [0x12, 0x40, 0xE2, 0x01] := by decide
theorem test_fetch_zero_payload : fetched 8 0x13 = [0x13, 0x00, 0x00, 0x00] := by decide
theorem test_fetch_nothing : fetched 8 0x40 = [] := by decide

/-! ## Passwords and relay numbers (E, K32 to K34) -/

theorem test_encodePassword : encodePassword password = some (0x40, 0xE2, 0x01) ∧
    encodePassword [0x39, 0x39, 0x39, 0x39, 0x39, 0x39] = some (0x3F, 0x42, 0x0F) ∧
    encodePassword [0x36, 0x35, 0x34, 0x33, 0x32, 0x31] = some (0xF1, 0xFB, 0x09) := by decide
theorem test_encodePassword_refuses : encodePassword [] = none ∧ encodePassword (password ++ [0x37]) = none ∧
    encodePassword [0x31, 0x32, 0x61, 0x34, 0x35, 0x36] = none ∧
    encodePassword [0x31, 0x32, 0x33, 0x34, 0x35, 0xB6] = none := by decide
theorem test_relay_numbers : resolve (.setRelay 0 true) = .error .invalidRelayNumber ∧
    resolve (.setRelay 9 false) = .error .invalidRelayNumber ∧
    resolve (.setRelay (-1) true) = .error .invalidRelayNumber := by decide

/-! ## Commands without a reply (K4, K6, K7, K14 to K31) -/

theorem test_exec_setPassword : wrote (.setPassword 0x6F 0x00 0x00) = ([0x13, 0x6F, 0x00, 0x00], done) := by decide
theorem test_exec_setModeLatching : wrote .setModeLatching = ([0x15], done) := by decide
theorem test_exec_setModeMomentary : wrote .setModeMomentary = ([0x16], done) := by decide
theorem test_exec_relay1High : wrote .relay1High = ([0x21], done) := by decide
theorem test_exec_relay2High : wrote .relay2High = ([0x22], done) := by decide
theorem test_exec_relay3High : wrote .relay3High = ([0x23], done) := by decide
theorem test_exec_relay4High : wrote .relay4High = ([0x24], done) := by decide
theorem test_exec_relay5High : wrote .relay5High = ([0x25], done) := by decide
theorem test_exec_relay6High : wrote .relay6High = ([0x26], done) := by decide
theorem test_exec_relay7High : wrote .relay7High = ([0x27], done) := by decide
theorem test_exec_relay8High : wrote .relay8High = ([0x28], done) := by decide
theorem test_exec_relay1Low : wrote .relay1Low = ([0x31], done) := by decide
theorem test_exec_relay2Low : wrote .relay2Low = ([0x32], done) := by decide
theorem test_exec_relay3Low : wrote .relay3Low = ([0x33], done) := by decide
theorem test_exec_relay4Low : wrote .relay4Low = ([0x34], done) := by decide
theorem test_exec_relay5Low : wrote .relay5Low = ([0x35], done) := by decide
theorem test_exec_relay6Low : wrote .relay6Low = ([0x36], done) := by decide
theorem test_exec_relay7Low : wrote .relay7Low = ([0x37], done) := by decide
theorem test_exec_relay8Low : wrote .relay8Low = ([0x38], done) := by decide
theorem test_exec_allHigh : wrote .allHigh = ([0x20], done) := by decide
theorem test_exec_allLow : wrote .allLow = ([0x30], done) := by decide

/-! ## Commands with a reply (K, PD, V, T, A vectors) -/

theorem test_ask_getBoardId : asked .getBoardId = ([0x10], 2, 50) := by decide
theorem test_reply_getBoardId : replied .getBoardId [0x08, 0x02] = .boardId 8 2 := by decide
theorem test_ask_getPassword : asked .getPassword = ([0x11], 3, 50) := by decide
theorem test_reply_getPassword : replied .getPassword [0x6F, 0x00, 0x00] = .password 111 [0x30, 0x30, 0x30, 0x31, 0x31, 0x31] true ∧
    replied .getPassword [0x40, 0x42, 0x0F] = .password 1000000 [0x31, 0x30, 0x30, 0x30, 0x30, 0x30, 0x30] false := by decide
theorem test_ask_verifyPassword : asked (.verifyPassword 0x40 0xE2 0x01) = ([0x12, 0x40, 0xE2, 0x01], 1, 50) := by decide
theorem test_reply_verifyPassword : replied (.verifyPassword 0 0 0) [0x00] = .bool false ∧
    replied (.verifyPassword 0 0 0) [0xFF] = .bool true := by decide
theorem test_ask_getMode : asked .getMode = ([0x14], 1, 50) := by decide
theorem test_reply_getMode : replied .getMode [0x15] = .mode .latching ∧ replied .getMode [0x16] = .mode .momentary ∧
    replied .getMode [0x00] = .mode .modeUnknown := by decide
theorem test_ask_getStatus : asked .getStatus = ([0x17], 1, 50) := by decide
theorem test_reply_getStatus : replied .getStatus [0x5A] = .raw [0x5A] := by decide
theorem test_ask_getFirmwareVersion : asked .getFirmwareVersion = ([0x18], 2, 50) := by decide
theorem test_reply_getFirmwareVersion : replied .getFirmwareVersion [0x02, 0x01] = .firmware 258 := by decide
theorem test_ask_getRelayStates : asked .getRelayStates = ([0x19], 1, 50) := by decide
theorem test_reply_getRelayStates : replied .getRelayStates [0x45] = .bitmask 0x45 := by decide
theorem test_ask_getVoltage : asked .getVoltage = ([0x1A], 1, 50) := by decide
theorem test_reply_getVoltage : replied .getVoltage [0x0C, 0x45] = .voltage 12 := by decide
theorem test_ask_getTempRaw : asked .getTempRaw = ([0x1B], 2, 30) := by decide
theorem test_reply_getTempRaw : replied .getTempRaw [0x01, 0x90] = .tempRaw 399 ∧
    replied .getTempRaw [0x00, 0xFF] = .tempRaw 255 := by decide
theorem test_ask_getTempAscii : asked .getTempAscii = ([0x1C], 0, 30) := by decide
theorem test_reply_getTempAscii : replied .getTempAscii [0x32, 0x33, 0x2E, 0x35, 0x0D, 0x0A] = .tempAscii false 235 1 ∧
    replied .getTempAscii [0x2D, 0x33, 0x2E, 0x32, 0x35] = .tempAscii true 325 2 ∧
    replied .getTempAscii [0x2D, 0x30, 0x2E, 0x30] = .tempAscii false 0 1 := by decide

/-! ## Decoders: the rest of the ASCII grammar (A8 to A17) and the relay bits (B) -/

theorem test_ascii_refused : decodeTempAscii [0x0D, 0x0A] = .tempAscii false 0 0 ∧
    decodeTempAscii [0x32, 0x33, 0x2E, 0x35, 0x43] = .tempAscii false 0 0 ∧
    decodeTempAscii [0x2E, 0x35] = .tempAscii false 0 0 ∧ decodeTempAscii [0x35, 0x2E] = .tempAscii false 0 0 ∧
    decodeTempAscii [0x2D, 0x2D, 0x31] = .tempAscii false 0 0 ∧ decodeTempAscii [0x32, 0x20, 0x33] = .tempAscii false 0 0 := by
  decide
theorem test_relay_bits : decodeRelays 0x45 = [true, false, true, false, false, false, true, false] ∧
    decodeRelays 0x80 = [false, false, false, false, false, false, false, true] := by decide

/-! ## The read, the gate, the supervisor, the Session: one step each -/

/-- M3: an idle time equal to the timeout does not end the read. -/
theorem test_read_strict : (after (exec .getVoltage (accumulating 1 10 [] []))).seq.rsmState = .accumulating := by decide
/-- M4. -/
theorem test_read_timeout_zero : (after (exec .getVoltage (accumulating 1 0 [] []))).seq.rsmState = .timedOut := by decide
/-- M11: more than expected is a success and is taken whole. -/
theorem test_read_surplus : (after (exec .getVoltage (accumulating 1 50 [] [0x0C, 0x45]))).seq.acc = [0x0C, 0x45] := by decide
/-- R241: no eleventh attempt. -/
theorem test_tenth_timeout : (after (exec .getVoltage (roundTripEnded .timedOut 10 []))).seq.supState = .failed := by decide
/-- K37: a closed transport. -/
theorem test_closed : (after (exec .getVoltage { trying with transportOpen := false })).seq.result =
    { value := .voltage 0, ok := false, err := .notOpen } := by decide
/-- R203, 42_read_state_machine.md `RsmRun`: an overflow rests the read, drops its buffer and leaves `rx`. -/
theorem test_read_overflow :
    let s := { accumulating 2 50 [0x02] [0x01] with cfg := { Config.reference with respCap := some 1 } }
    let t := after (exec .getBoardId s)
    t.seq.rsmState = .idle ∧ t.seq.acc = [] ∧ t.rx = [0x01] ∧ t.gateHeld = false ∧ t.seq.busy = true := by decide
/-- R261, R236: `open` presents `Synchronize`, which encodes the password it was given and counts its first attempt. -/
theorem test_open :
    let t := after (step (moved (.call (.openSession [] password)) State.reset))
    t.seq.supState = .attempt ∧ t.seq.syncPw = (0x40, 0xE2, 0x01) ∧ t.seq.attemptCnt = 1 := by decide
/-- R236: an attempt sends the password encoded at the start, also when the register has changed since. -/
theorem test_attempt_keeps_password :
    (after (exec .getVoltage { supervising .attempt 2 with curPw := [] })).tx = [0x12, 0x40, 0xE2, 0x01] := by decide

/-! ## Witnesses: for each obligation with hypotheses, a state and operands that meet them -/

theorem witness_DecodeOfEncode : Config.reference.opcodesDistinct = true ∧
    (Instr.verifyPassword 0x3F 0x42 0x0F).wf = true := by decide
theorem witness_DecodeOnlyEncodings : decode Config.reference [0x12, 0x3F, 0x42, 0x0F, 0x99] =
    .ok (.verifyPassword 0x3F 0x42 0x0F, [0x99]) := by decide
theorem witness_EncodeIsOpcodeThenPayload : (∀ a b c, Instr.getMode ≠ .verifyPassword a b c) ∧
    (∀ a b c, Instr.getMode ≠ .setPassword a b c) := by simp
theorem witness_WordsDecodeRight : Config.reference.opcodesDistinct = true := by decide
theorem witness_StepRunsPlacedWord : ready.fault = none ∧ ready.seq.busy = false ∧ ready.seq.rsmState = .idle ∧
    ready.call = .idle ∧ ready.openingElsewhere = false ∧
    decodeWordUnder ready.cfg 32 0x01E24012 = some (.verifyPassword 0x40 0xE2 0x01) := by decide
theorem witness_StepContinuesCommand :
    let s := accumulating 1 50 [] [0x0C]
    s.fault = none ∧ s.seq.busy = true ∧ s.seq.cancelPending = false ∧ s.cfg.hasCancel = false ∧
    s.nextInput.move ≠ .reset ∧ (∀ k, s.nextInput.move ≠ .turn k) ∧ s.seq.req ≠ .synchronize ∧
    ¬ (s.seq.opState = .firstTry ∧ s.seq.rsmState = .idle) :=
  ⟨by decide, by decide, by decide, by decide, by decide, not_turn (by decide), by decide, by decide⟩

theorem witness_EncodePasswordRule : (∀ d ∈ [(0x30 : Byte), 0x30, 0x30, 0x30, 0x30, 0x30], 0x30 ≤ d.toNat ∧ d.toNat ≤ 0x39) ∧
    (∀ d ∈ [(0x39 : Byte), 0x39, 0x39, 0x39, 0x39, 0x39], 0x30 ≤ d.toNat ∧ d.toNat ≤ 0x39) ∧
    [(0x31 : Byte), 0x32, 0x33, 0x34, 0x35].length ≠ 6 ∧
    (∃ d ∈ [(0x31 : Byte), 0x32, 0x33, 0x34, 0x35, 0x3A], d.toNat < 0x30 ∨ 0x39 < d.toNat) ∧
    (∃ d ∈ [(0x2F : Byte), 0x32, 0x33, 0x34, 0x35, 0x36], d.toNat < 0x30 ∨ 0x39 < d.toNat) := by decide
theorem witness_PasswordRoundTrip : password.length = 6 ∧ AsciiDigits password ∧ spelled password = 123456 ∧
    999999 = (0x3F : Byte).toNat + 256 * (0x42 : Byte).toNat + 65536 * (0x0F : Byte).toNat ∧ 999999 ≤ 999999 ∧
    0 = (0x00 : Byte).toNat + 256 * (0x00 : Byte).toNat + 65536 * (0x00 : Byte).toNat := by
  unfold AsciiDigits; decide
/-- The least and the greatest value out of range. -/
theorem witness_PasswordRoundTrip_large :
    1000000 = (0x40 : Byte).toNat + 256 * (0x42 : Byte).toNat + 65536 * (0x0F : Byte).toNat ∧ 999999 < 1000000 ∧
    16777215 = (0xFF : Byte).toNat + 256 * (0xFF : Byte).toNat + 65536 * (0xFF : Byte).toNat ∧ 999999 < 16777215 := by decide
theorem test_decodePassword_large :
    decodePassword 0xFF 0xFF 0xFF = .password 16777215 [0x31, 0x36, 0x37, 0x37, 0x37, 0x32, 0x31, 0x35] false := by decide
theorem witness_RelayTable : (0 : Int) < 1 ∧ 8 < (9 : Int) := by decide
theorem witness_RefusedRequestWritesNothing :
    let s := moved (.request (.setRelay 9 true)) ready
    s.fault = none ∧ s.seq.busy = false ∧ s.seq.rsmState = .idle ∧ s.call = .idle ∧ s.openingElsewhere = false ∧
    s.nextInput.move = .request (.setRelay 9 true) ∧ resolve (.setRelay 9 true) = .error .invalidRelayNumber ∧
    resolve (.verifyPassword []) = .error .invalidPassword := by decide

theorem witness_RelayBitLaw : (1 : Nat) ≤ 1 ∧ (1 : Nat) ≤ 8 ∧ (1 : Nat) ≤ 8 ∧ (8 : Nat) ≤ 8 := by decide
theorem witness_WordDecoders : (0x00 : Byte) ≠ Config.reference.opcodeOf .setModeLatching ∧
    (0x00 : Byte) ≠ Config.reference.opcodeOf .setModeMomentary ∧ Config.reference.boardModelFirst = true ∧
    ({ Config.reference with boardModelFirst := false } : Config).boardModelFirst = false := by decide
theorem witness_ModeReply : Config.reference.opcodesDistinct = true := by decide
theorem witness_AsciiTemperatureParses : WhiteSpace [0x09, 0x0B, 0x0C, 0x20] ∧ WhiteSpace [0x0D, 0x0A] ∧
    MatchesDecimal [0x2D, 0x33, 0x2E, 0x32, 0x35] true [0x33] [0x32, 0x35] ∧ MatchesDecimal [0x30] false [0x30] [] ∧
    spelled [0x33, 0x32, 0x35] = 325 := by
  unfold WhiteSpace MatchesDecimal AsciiDigits
  refine ⟨by decide, by decide, ⟨by decide, by decide, by decide, [0x2D], ?_, ?_⟩,
    ⟨by decide, by decide, by decide, [], ?_, ?_⟩, by decide⟩
  · exact .inr (.inr ⟨rfl, rfl⟩)
  · exact .inr ⟨by decide, rfl⟩
  · exact .inl ⟨rfl, rfl⟩
  · exact .inl ⟨rfl, rfl⟩
/-- The empty reply is outside the grammar. -/
theorem witness_AsciiTemperatureDefaults : ¬ ∃ pre t post neg ip fp, ([] : Bytes) = pre ++ t ++ post ∧
    WhiteSpace pre ∧ WhiteSpace post ∧ MatchesDecimal t neg ip fp := by
  rintro ⟨pre, t, post, neg, ip, fp, h, _, _, hip, _, _, sign, _, hm⟩
  have ht : t = [] := by
    have := congrArg List.length h
    simp only [List.length_nil, List.length_append] at this
    exact List.length_eq_zero_iff.1 (by omega)
  rcases hm with ⟨_, h⟩ | ⟨_, h⟩ <;> simp [ht] at h
  exact hip h.2

theorem witness_ReadBranch :
    let s := { accumulating 2 50 [0x02] [0x01] with cfg := { Config.reference with respCap := some 2 } }
    s.fault = none ∧ s.seq.rsmState = .accumulating ∧ s.rx ≠ [] ∧
    (∀ cap, s.cfg.respCap = some cap → s.seq.acc.length + s.rx.length ≤ cap) := by
  refine ⟨by decide, by decide, by decide, ?_⟩
  intro cap h
  cases h
  decide
theorem witness_ReadOverflow :
    let s := { accumulating 2 50 [0x02] [0x01] with cfg := { Config.reference with respCap := some 1 } }
    s.fault = none ∧ s.seq.rsmState = .accumulating ∧ s.rx ≠ [] ∧ s.cfg.respCap = some 1 ∧
    1 < s.seq.acc.length + s.rx.length := by decide
theorem witness_SleepBranch : (accumulating 1 50 [] []).fault = none ∧
    (accumulating 1 50 [] []).seq.rsmState = .accumulating ∧ (accumulating 1 50 [] []).rx = [] := by decide
theorem witness_SilentReadTimesOut :
    let s := accumulating 1 50 [] []
    s.seq.rsmState = .accumulating ∧ s.seq.acc = [] ∧ s.seq.idleMs = 0 ∧ s.rx = [] ∧
    0 ≤ pollsOf s.seq.rsmTimeoutMs ∧ pollsOf s.seq.rsmTimeoutMs = 6 := by decide
theorem witness_UnboundedReadEndsOnSilence :
    let s := accumulating 0 30 [0x32] []
    s.seq.rsmState = .accumulating ∧ s.seq.rsmExpected ≤ 0 ∧ s.seq.acc ≠ [] ∧ s.seq.idleMs = 0 ∧ s.rx = [] ∧
    0 ≤ pollsOf s.seq.rsmTimeoutMs ∧ pollsOf s.seq.rsmTimeoutMs = 4 := by decide

theorem witness_CommandWithoutReplyCompletes : hasReply trying.cfg .allHigh = false ∧ trying.fault = none ∧
    trying.seq.rsmState = .idle ∧ trying.seq.opState = .firstTry ∧ ready.seq.opState = .idle ∧
    trying.transportOpen = true ∧ trying.gateHeld = false ∧ trying.now.writeFault = none := by decide
theorem witness_QueryExchangeBegins : hasReply trying.cfg .getStatus = true ∧ trying.fault = none ∧
    trying.seq.rsmState = .idle ∧ (trying.seq.opState = .firstTry ∧ trying.transportOpen = true) ∧
    trying.gateHeld = false ∧ trying.now.writeFault = none := by decide
theorem witness_QueryExchangeBegins_retry :
    let s := { ready with seq := { ready.seq with opState := .retry, cmd := .getTempAscii } }
    hasReply s.cfg .getTempAscii = true ∧ s.fault = none ∧ s.seq.rsmState = .idle ∧
    (s.seq.opState = .retry ∧ s.seq.cmd = .getTempAscii) ∧ s.gateHeld = false ∧ s.now.writeFault = none := by decide
theorem witness_QueryCompletes : hasReply ready.cfg .getVoltage = true ∧
    (reading .firstTry .satisfied [0x0C]).fault = none ∧ (reading .firstTry .satisfied [0x0C]).seq.rsmState = .satisfied ∧
    (reading .firstTry .satisfied [0x0C]).seq.opState = .firstTry ∧
    (reading .retry .satisfied [0x0C]).seq.opState = .retry := by decide
theorem witness_FirstTimeoutStartsResync :
    let s := reading .firstTry .timedOut []
    s.fault = none ∧ s.seq.opState = .firstTry ∧ s.seq.rsmState = .timedOut ∧
    hasReply trying.cfg .relay1High = false ∧ trying.fault = none ∧ trying.seq.opState = .firstTry ∧
    trying.seq.rsmState = .idle ∧ answered (exec .getVoltage s) = true ∧
    (after (exec .getVoltage s)).seq.opState = .resync := by decide
theorem witness_RetryTimeoutReported : (reading .retry .timedOut [0x02]).fault = none ∧
    (reading .retry .timedOut [0x02]).seq.rsmState = .timedOut ∧
    (reading .retry .timedOut [0x02]).seq.opState = .retry := by decide
theorem witness_ClosedTransportReported :
    let s := { trying with transportOpen := false }
    s.fault = none ∧ s.seq.rsmState = .idle ∧ s.seq.opState = .firstTry ∧ s.transportOpen = false := by decide
theorem witness_FailedWriteFaults :
    let s := { trying with now := { Input.quiet with writeFault := some 1 } }
    let r := { s with seq := { s.seq with opState := .retry } }
    let v := { supervising .attempt 9 with now := { Input.quiet with writeFault := some 2 } }
    (s.fault = none ∧ s.seq.rsmState = .idle ∧ s.gateHeld = false ∧ s.now.writeFault = some 1 ∧
      s.seq.opState = .firstTry ∧ s.transportOpen = true) ∧
    (r.fault = none ∧ r.seq.rsmState = .idle ∧ r.gateHeld = false ∧ r.now.writeFault = some 1 ∧
      r.seq.opState = .retry) ∧
    (v.fault = none ∧ v.seq.rsmState = .idle ∧ v.gateHeld = false ∧ v.now.writeFault = some 2 ∧
      v.seq.opState = .resync ∧ v.seq.supState = .attempt ∧ v.seq.syncPw = (0x40, 0xE2, 0x01)) := by decide
theorem witness_HeldGateBlocks :
    let s := { trying with gateHeld := true }
    let r := { s with seq := { s.seq with opState := .retry } }
    let v := { supervising .attempt 3 with gateHeld := true }
    (s.fault = none ∧ s.seq.rsmState = .idle ∧ s.gateHeld = true ∧ s.seq.opState = .firstTry ∧ s.transportOpen = true) ∧
    (r.fault = none ∧ r.seq.rsmState = .idle ∧ r.gateHeld = true ∧ r.seq.opState = .retry) ∧
    (v.fault = none ∧ v.seq.rsmState = .idle ∧ v.gateHeld = true ∧ v.seq.opState = .resync ∧
      v.seq.supState = .attempt) := by decide
theorem witness_ExecFrame : exec .getVoltage trying = .next (after (exec .getVoltage trying)) ∧
    trying.seq.opState ≠ .resync ∧ (after (exec .getVoltage trying)).seq.opState ≠ .idle ∧
    hasReply trying.cfg .getVoltage = true ∧ trying.seq.rsmState = .idle :=
  ⟨next_after (by decide), by decide, by decide, by decide, by decide⟩
theorem witness_ExecFrame_read : exec .getVoltage (accumulating 1 50 [] [0x0C]) =
    .next (after (exec .getVoltage (accumulating 1 50 [] [0x0C]))) ∧
    (accumulating 1 50 [] [0x0C]).seq.rsmState = .accumulating := ⟨next_after (by decide), by decide⟩
theorem witness_ExecWritesOnlyCommands : exec .getVoltage (supervising .attempt 1) =
    .next (after (exec .getVoltage (supervising .attempt 1))) := next_after (by decide)

theorem witness_ResyncStartsOrRefuses :
    let s := supervising .idle 0
    let m := { s with curPw := [] }
    (s.fault = none ∧ s.seq.rsmState = .idle ∧ s.seq.opState = .resync ∧ s.seq.supState = .idle ∧
      encodePassword s.curPw = some (0x40, 0xE2, 0x01)) ∧
    (m.fault = none ∧ m.seq.rsmState = .idle ∧ m.seq.opState = .resync ∧ m.seq.supState = .idle ∧
      encodePassword m.curPw = none) := by decide
theorem witness_AttemptVerifiesCurrentPassword :
    let s := supervising .attempt 9
    s.fault = none ∧ s.seq.rsmState = .idle ∧ s.seq.opState = .resync ∧ s.seq.supState = .attempt ∧
    s.gateHeld = false ∧ s.now.writeFault = none ∧ s.seq.syncPw = (0x40, 0xE2, 0x01) := by decide
theorem witness_AttemptOutcome :
    let a := roundTripEnded .satisfied 10 [0x00]
    let b := roundTripEnded .timedOut 10 []
    let c := roundTripEnded .timedOut 9 []
    (a.fault = none ∧ a.seq.opState = .resync ∧ a.seq.rsmState = .satisfied) ∧
    (b.fault = none ∧ b.seq.opState = .resync ∧ b.seq.rsmState = .timedOut ∧ b.seq.attemptCnt = 10) ∧
    (c.fault = none ∧ c.seq.opState = .resync ∧ c.seq.rsmState = .timedOut ∧ c.seq.attemptCnt ≠ 10) := by decide
theorem witness_SupervisorGoesOn :
    let a := supervising .sleeping 9
    let b := supervising .synced 1
    let c := supervising .failed 10
    (a.fault = none ∧ a.seq.rsmState = .idle ∧ a.seq.opState = .resync ∧ a.seq.supState = .sleeping) ∧
    (b.fault = none ∧ b.seq.rsmState = .idle ∧ b.seq.opState = .resync ∧ b.seq.supState = .synced) ∧
    (c.fault = none ∧ c.seq.rsmState = .idle ∧ c.seq.opState = .resync ∧ c.seq.supState = .failed) := by decide
theorem witness_SynchronizeReports :
    let a := supervising .synced 1
    let b := supervising .failed 10
    let sa := { a with seq := { a.seq with req := .synchronize } }
    let sb := { b with seq := { b.seq with req := .synchronize } }
    (sa.fault = none ∧ sa.seq.busy = true ∧ sa.seq.req = .synchronize ∧ sa.seq.cancelPending = false ∧
      sa.cfg.hasCancel = false ∧ sa.nextInput.move ≠ .reset ∧ (∀ k, sa.nextInput.move ≠ .turn k) ∧
      sa.seq.opState = .resync ∧ sa.seq.rsmState = .idle ∧ sa.seq.supState = .synced) ∧
    (sb.fault = none ∧ sb.seq.busy = true ∧ sb.seq.req = .synchronize ∧ sb.seq.cancelPending = false ∧
      sb.cfg.hasCancel = false ∧ sb.nextInput.move ≠ .reset ∧ (∀ k, sb.nextInput.move ≠ .turn k) ∧
      sb.seq.opState = .resync ∧ sb.seq.rsmState = .idle ∧ sb.seq.supState = .failed) :=
  ⟨⟨by decide, by decide, by decide, by decide, by decide, by decide, not_turn (by decide), by decide, by decide,
    by decide⟩,
   ⟨by decide, by decide, by decide, by decide, by decide, by decide, not_turn (by decide), by decide, by decide,
    by decide⟩⟩
/-- A step of a bare resynchronisation, as the statement's second part asks of it. -/
def synchronizing (s : State) : State := { s with seq := { s.seq with req := .synchronize } }
theorem witness_SynchronizeReports_steps :
    ∀ s ∈ [synchronizing (supervising .attempt 9), synchronizing (supervising .sleeping 9),
        synchronizing (roundTripEnded .satisfied 1 [0x01]), synchronizing (roundTripEnded .timedOut 10 []),
        synchronizing (roundTripEnded .timedOut 9 []), synchronizing (roundTripEnded .accumulating 1 [])],
      s.fault = none ∧ s.seq.busy = true ∧ s.seq.req = .synchronize ∧ s.seq.cancelPending = false ∧
      s.cfg.hasCancel = false ∧ s.nextInput.move = .nothing ∧ s.nextInput.writeFault = none ∧
      s.seq.opState = .resync ∧ s.seq.syncPw = (0x40, 0xE2, 0x01) ∧
      (s.seq.rsmState ≠ .idle ∨ s.seq.supState = .sleeping ∨ (s.seq.supState = .attempt ∧ s.gateHeld = false)) := by
  decide
theorem witness_SynchronizeReports_start :
    let a := moved (.request .synchronize) ready
    let b := { a with curPw := [] }
    let c := { a with transportOpen := false }
    (a.fault = none ∧ a.seq.busy = false ∧ a.seq.rsmState = .idle ∧ a.call = .idle ∧ a.openingElsewhere = false ∧
      a.nextInput.move = .request .synchronize ∧ a.transportOpen = true ∧
      encodePassword a.curPw = some (0x40, 0xE2, 0x01)) ∧
    (b.fault = none ∧ b.seq.busy = false ∧ b.seq.rsmState = .idle ∧ b.call = .idle ∧ b.openingElsewhere = false ∧
      b.nextInput.move = .request .synchronize ∧ b.transportOpen = true ∧ encodePassword b.curPw = none) ∧
    (c.fault = none ∧ c.seq.busy = false ∧ c.seq.rsmState = .idle ∧ c.call = .idle ∧ c.openingElsewhere = false ∧
      c.nextInput.move = .request .synchronize ∧ c.transportOpen = false) := by decide

theorem witness_PromptReplyCompletesInThreeSteps :
    let s := { ready with inputs := { Input.quiet with move := .request (requestOf .getRelayStates) } ::
      { Input.quiet with arr := [0x45] } :: Input.quiet :: [] }
    s.fault = none ∧ s.seq.busy = false ∧ s.seq.rsmState = .idle ∧ s.call = .idle ∧ s.openingElsewhere = false ∧
    s.transportOpen = true ∧ s.gateHeld = false ∧ s.rx = [] ∧ s.cfg.respCap = none ∧ s.cfg.hasCancel = false ∧
    s.seq.cancelPending = false ∧ Instr.getRelayStates.wf = true ∧ specReply s.cfg .getRelayStates = .fixed 1 ∧
    1 ≤ 1 ∧ 1 ≤ [(0x45 : Byte)].length ∧
    s.inputs = { Input.quiet with move := .request (requestOf .getRelayStates) } ::
      { Input.quiet with arr := [0x45] } :: Input.quiet :: [] := by decide
/-- The inputs the run of the statement has: the request, then silence. -/
theorem witness_DeadLinkEndsInSyncFailed :
    ({ ready with inputs := { Input.quiet with move := .request (requestOf .getTempAscii) } ::
        (List.replicate 180 Input.quiet ++ []) } : State).nextInput.move = .request .getTemperatureAscii ∧
    ready.fault = none ∧ ready.seq.busy = false ∧ ready.seq.rsmState = .idle ∧
    ready.seq.supState = .idle ∧ ready.call = .idle ∧ ready.openingElsewhere = false ∧ ready.transportOpen = true ∧
    ready.gateHeld = false ∧ ready.rx = [] ∧ ready.cfg.hasCancel = false ∧ ready.seq.cancelPending = false ∧
    Instr.getTempAscii.wf = true ∧ hasReply ready.cfg .getTempAscii = true ∧
    encodePassword ready.curPw = some (0x40, 0xE2, 0x01) := by decide

theorem witness_RaiseRestsTheMachines : ErrorCode.syncFailed ≠ .none := by decide
theorem witness_CancelEndsTheOperation :
    let cfg := { Config.reference with hasCancel := true }
    let a := { moved .cancel (accumulating 1 50 [0x02] []) with cfg := cfg }
    let b := { moved .cancel (supervising .sleeping 3) with cfg := cfg }
    (a.cfg.hasCancel = true ∧ a.fault = none ∧ a.seq.busy = true ∧ a.seq.rsmState = .accumulating ∧
      a.nextInput.move = .cancel) ∧
    (b.cfg.hasCancel = true ∧ b.fault = none ∧ b.seq.busy = true ∧ b.seq.rsmState = .idle ∧
      b.nextInput.move = .cancel) := by decide
theorem witness_FaultStopsUntilReset :
    let s := { trying with fault := some .transportFault }
    s.fault = some .transportFault ∧ s.nextInput.move ≠ .reset ∧ (moved .reset s).nextInput.move = .reset ∧
    (moved .reset s).fault = some .transportFault := by decide
theorem witness_ResetMove : (moved .reset (accumulating 1 50 [0x02] [])).nextInput.move = .reset := by decide

/-- A busy state, its gate held by the one exchange. -/
theorem witness_StepKeepsInv : (accumulating 1 50 [] [0x0C]).Inv ∧
    step (accumulating 1 50 [] [0x0C]) = .next (after (step (accumulating 1 50 [] [0x0C]))) := by
  have one : ∀ t ∈ (accumulating 1 50 [] [0x0C]).threads, t = (accumulating 1 50 [] [0x0C]).thread := by
    intro t ht
    simpa [State.threads, accumulating, reading, ready, State.reset] using ht
  refine ⟨⟨fun t ht => ?_, by decide⟩, next_after (by decide)⟩
  cases one t ht
  constructor <;> decide
/-- A faulted state that a run reaches: the write of the tenth verification failed. -/
theorem witness_StepKeepsInv_faulted :
    let s := { moved .reset (supervising .attempt 10) with fault := some .transportFault }
    s.Inv ∧ step s = .next (after (step s)) := by
  refine ⟨⟨fun t ht => ?_, by decide⟩, next_after (by decide)⟩
  have : t = (supervising .attempt 10).thread := by
    simpa [State.threads, State.thread, moved, supervising, ready, State.reset] using ht
  subst this
  constructor <;> decide
theorem witness_StepKeepsWithinCapacity :
    let s := { accumulating 2 50 [0x02] [0x01] with cfg := { Config.reference with respCap := some 2 } }
    s.WithinCapacity ∧ step s = .next (after (step s)) := by
  refine ⟨?_, next_after (by decide)⟩
  intro cap h t ht
  cases h
  have : t = (accumulating 2 50 [0x02] [0x01]).thread := by
    simpa [State.threads, State.thread, accumulating, reading, ready, State.reset] using ht
  subst this
  decide
theorem witness_StepKeepsSessionInv :
    let s := { opened with call := .relaySet 3 true }
    s.SessionInv ∧ step s = .next (after (step s)) := by
  refine ⟨?_, next_after (by decide)⟩
  constructor <;> decide
theorem witness_StepKeepsConfig : step (accumulating 1 50 [] [0x0C]) = .next (after (step (accumulating 1 50 [] [0x0C]))) :=
  next_after (by decide)
theorem witness_StepAppendsWholeCommands :
    step (moved (.request .getVoltage) ready) = .next (after (step (moved (.request .getVoltage) ready))) :=
  next_after (by decide)
theorem witness_OnlyReadsTakeBytes :
    let s := { moved (.request .getVoltage) ready with rx := [0x45] }
    step s = .next (after (step s)) ∧ s.seq.rsmState ≠ .accumulating := ⟨next_after (by decide), by decide⟩
theorem witness_BusyIgnoresTheHost :
    let d := { Input.quiet with move := .request .getVoltage }
    let s := { accumulating 1 50 [] [] with inputs := [d] }
    s.inputs = d :: [] ∧ s.seq.busy = true ∧ d.move ≠ .reset ∧ d.move ≠ .cancel ∧ (∀ k, d.move ≠ .turn k) ∧
    step s = .next (after (step s)) :=
  ⟨by decide, by decide, by decide, by decide, not_turn (by decide), next_after (by decide)⟩
theorem witness_TimePassesOnlyInSleeps : exec .getVoltage (accumulating 1 50 [] []) =
    .next (after (exec .getVoltage (accumulating 1 50 [] []))) := next_after (by decide)
/-- A sleep of the bare resynchronisation, and a step that closes the session. -/
theorem witness_TimePassesOnlyInSleeps_steps :
    let s := synchronizing (supervising .sleeping 9)
    let c := moved (.call .closeSession) opened
    (step s = .next (after (step s)) ∧ s.nextInput.move ≠ .reset ∧ (∀ k, s.nextInput.move ≠ .turn k) ∧
      (after (step s)).seq.sleptMs = s.seq.sleptMs + 10) ∧
    (step c = .next (after (step c)) ∧ c.nextInput.move ≠ .reset ∧ (∀ k, c.nextInput.move ≠ .turn k) ∧
      (after (step c)).session = Session.reset) :=
  ⟨⟨next_after (by decide), by decide, not_turn (by decide), by decide⟩,
   ⟨next_after (by decide), by decide, not_turn (by decide), by decide⟩⟩
theorem witness_TurnOnlyReorders :
    let s := { moved (.turn 0) (accumulating 1 50 [] []) with parked := [Thread.reset] }
    let n := moved (.turn 1) s
    (s.fault = none ∧ s.nextInput.move = .turn 0 ∧ s.parked[0]? = some Thread.reset ∧ s.thread ≠ Thread.reset ∧
      (after (step s)).seq = Sequencer.reset) ∧
    (n.fault = none ∧ n.nextInput.move = .turn 1 ∧ n.parked.length ≤ 1) := by decide

theorem witness_ClosedSessionPresentsNothing :
    let s := moved (.call .getVoltage) State.reset
    s.fault = none ∧ s.seq.busy = false ∧ s.call = .idle ∧ s.openingElsewhere = false ∧
    s.nextInput.move = .call .getVoltage ∧ s.session = Session.reset ∧
    (∀ p pw, Call.getVoltage ≠ .openSession p pw) ∧ Call.getVoltage ≠ .closeSession :=
  ⟨by decide, by decide, by decide, by decide, by decide, by decide, by simp, by decide⟩
theorem witness_OpenTwiceFailsFast :
    let s := moved (.call (.openSession [] password)) opened
    let b := { s with parked := [{ Thread.reset with call := .openBoard }] }
    (s.fault = none ∧ s.seq.busy = false ∧ s.call = .idle ∧
      s.nextInput.move = .call (.openSession [] password) ∧ s.session.isOpen = true) ∧
    (b.fault = none ∧ b.seq.busy = false ∧ b.call = .idle ∧ b.openingElsewhere = true ∧
      b.nextInput.move = .call (.openSession [] password) ∧ b.session.isOpen = true) := by decide
theorem witness_FailedOpenLeavesClosed :
    let failed : OpResult := { value := .bool false, ok := false, err := .syncFailed }
    let refused : OpResult := { value := .bool false, ok := true, err := .none }
    let s := { opened with call := .openSync, seq := { opened.seq with result := failed } }
    let r := { opened with call := .openSync, seq := { opened.seq with result := refused } }
    (s.fault = none ∧ s.seq.busy = false ∧ s.call = .openSync ∧ s.nextInput.move ≠ .reset ∧
      (∀ k, s.nextInput.move ≠ .turn k) ∧ s.seq.result.err = .syncFailed) ∧
    (r.fault = none ∧ r.seq.busy = false ∧ r.call = .openSync ∧ r.nextInput.move ≠ .reset ∧
      (∀ k, r.nextInput.move ≠ .turn k) ∧ r.seq.result.value = .bool false) :=
  ⟨⟨by decide, by decide, by decide, by decide, not_turn (by decide), by decide⟩,
   ⟨by decide, by decide, by decide, by decide, not_turn (by decide), by decide⟩⟩
theorem witness_FailedOpenLeavesClosed_identity :
    let id : OpResult := { value := .boardId 8 2, ok := true, err := .none }
    let failed : OpResult := { value := .firmware 0, ok := false, err := .timeout }
    let s := { opened with call := .openFirmware id, seq := { opened.seq with result := failed } }
    s.fault = none ∧ s.seq.busy = false ∧ s.call = .openFirmware id ∧ s.nextInput.move ≠ .reset ∧
    (∀ k, s.nextInput.move ≠ .turn k) ∧ (id.ok = false ∨ s.seq.result.ok = false) :=
  ⟨by decide, by decide, by decide, by decide, not_turn (by decide), by decide⟩
/-- Both identity queries have failed, with different errors. -/
theorem witness_FailedOpenLeavesClosed_both :
    let id : OpResult := { value := .boardId 0 0, ok := false, err := .timeout }
    let failed : OpResult := { value := .firmware 0, ok := false, err := .syncFailed }
    let s := { opened with call := .openFirmware id, seq := { opened.seq with result := failed } }
    s.fault = none ∧ s.seq.busy = false ∧ s.call = .openFirmware id ∧ s.nextInput.move ≠ .reset ∧
    (∀ k, s.nextInput.move ≠ .turn k) ∧ id.ok = false ∧ s.seq.result.ok = false ∧ id.err ≠ s.seq.result.err :=
  ⟨by decide, by decide, by decide, by decide, not_turn (by decide), by decide, by decide, by decide⟩
/-- A raw host has opened the transport and loaded a password; the password given to `open` is malformed. -/
theorem witness_FailedOpenLeavesClosed_malformed :
    let s := moved (.call (.openSession [0x43] [0x31])) ready
    s.fault = none ∧ s.seq.busy = false ∧ s.call = .idle ∧
    s.nextInput.move = .call (.openSession [0x43] [0x31]) ∧ s.session.isOpen = false ∧ s.quiet = true ∧
    encodePassword [0x31] = none ∧ s.transportOpen = true ∧ s.curPw = password := by decide
/-- The transport was left open by a raw host, and does not open again. -/
theorem witness_FailedOpenLeavesClosed_transport :
    let s := { ready with
      inputs := [{ Input.quiet with openFails := true, move := .call (.openSession [0x43] password) }] }
    s.fault = none ∧ s.seq.busy = false ∧ s.call = .idle ∧
    s.nextInput.move = .call (.openSession [0x43] password) ∧ s.session.isOpen = false ∧ s.quiet = true ∧
    encodePassword password ≠ none ∧ s.nextInput.openFails = true ∧ s.transportOpen = true := by decide
theorem witness_OpenFetchesIdentity :
    let id : OpResult := { value := .boardId 8 2, ok := true, err := .none }
    let s := { opened with
      call := .openFirmware id
      session := { opened.session with isAuthenticated := false, identity := none }
      seq := { opened.seq with result := { value := .firmware 258, ok := true, err := .none } } }
    s.fault = none ∧ s.seq.busy = false ∧ s.nextInput.move ≠ .reset ∧ (∀ k, s.nextInput.move ≠ .turn k) ∧
    s.call = .openFirmware id ∧ id = { value := .boardId 8 2, ok := true, err := .none } ∧
    s.seq.result = { value := .firmware 258, ok := true, err := .none } :=
  ⟨by decide, by decide, by decide, not_turn (by decide), by decide, by decide, by decide⟩
theorem witness_OnlyVerifiedPasswordAdopted :
    let new : Bytes := [0x30, 0x30, 0x30, 0x31, 0x31, 0x31]
    let s := { opened with
      call := .changeNew new, seq := { opened.seq with result := { value := .bool true, ok := true, err := .none } } }
    step s = .next (after (step s)) ∧ s.session.isOpen = true ∧ (after (step s)).session.isOpen = true ∧
    (after (step s)).session.currentPassword ≠ s.session.currentPassword :=
  ⟨next_after (by decide), by decide, by decide, by decide⟩
/-- The three requests of a password change: each phase is entered, with its request presented. -/
theorem witness_OnlyVerifiedPasswordAdopted_phases :
    let new : Bytes := [0x30, 0x30, 0x30, 0x31, 0x31, 0x31]
    let a := moved (.call (.changePassword new)) opened
    let b := { opened with
      call := .changeOld new, seq := { opened.seq with result := { value := .bool true, ok := true, err := .none } } }
    let c := { opened with call := .changeSet new }
    (step a = .next (after (step a)) ∧ (∀ k, a.nextInput.move ≠ .turn k) ∧ (after (step a)).call = .changeOld new) ∧
    (step b = .next (after (step b)) ∧ (∀ k, b.nextInput.move ≠ .turn k) ∧ (after (step b)).call = .changeSet new) ∧
    (step c = .next (after (step c)) ∧ (∀ k, c.nextInput.move ≠ .turn k) ∧ (after (step c)).call = .changeNew new) :=
  ⟨⟨next_after (by decide), not_turn (by decide), by decide⟩, ⟨next_after (by decide), not_turn (by decide), by decide⟩,
   ⟨next_after (by decide), not_turn (by decide), by decide⟩⟩
theorem witness_SetRelayConfirms :
    let s := { opened with call := .relaySet 3 true }
    let c := { opened with
      call := .relayConfirm 3 true, seq := { opened.seq with result := { value := .bitmask 0x04, ok := true, err := .none } } }
    let f := { opened with
      call := .relayConfirm 8 true, seq := { opened.seq with result := { value := .bitmask 0, ok := false, err := .timeout } } }
    (s.fault = none ∧ s.seq.busy = false ∧ s.nextInput.move ≠ .reset ∧ (∀ k, s.nextInput.move ≠ .turn k) ∧
      s.call = .relaySet 3 true ∧ s.transportOpen = true ∧ s.gateHeld = false ∧ s.nextInput.writeFault = none ∧
      s.seq.rsmState = .idle) ∧
    (c.fault = none ∧ c.seq.busy = false ∧ c.nextInput.move ≠ .reset ∧ (∀ k, c.nextInput.move ≠ .turn k) ∧
      c.call = .relayConfirm 3 true ∧ c.seq.result = { value := .bitmask 0x04, ok := true, err := .none }) ∧
    (f.fault = none ∧ f.seq.busy = false ∧ f.nextInput.move ≠ .reset ∧ (∀ k, f.nextInput.move ≠ .turn k) ∧
      f.call = .relayConfirm 8 true ∧ f.seq.result.ok = false) :=
  ⟨⟨by decide, by decide, by decide, not_turn (by decide), by decide, by decide, by decide, by decide, by decide⟩,
   ⟨by decide, by decide, by decide, not_turn (by decide), by decide, by decide⟩,
   ⟨by decide, by decide, by decide, not_turn (by decide), by decide, by decide⟩⟩
/-- `setRelay` at the ends of its range and beyond them. -/
theorem witness_SetRelayConfirms_called :
    let called := fun n => moved (.call (.setRelay n true)) opened
    (∀ n ∈ [(1 : Int), 8, 0, 9], (called n).fault = none ∧ (called n).seq.busy = false ∧ (called n).call = .idle ∧
      (called n).openingElsewhere = false ∧ (called n).session.isOpen = true ∧
      (called n).nextInput.move = .call (.setRelay n true) ∧ (called n).transportOpen = true ∧ (called n).gateHeld = false ∧
      (called n).nextInput.writeFault = none ∧ (called n).seq.rsmState = .idle) ∧
    (1 : Int) ≤ 1 ∧ (8 : Int) ≤ 8 ∧ (0 : Int) < 1 ∧ 8 < (9 : Int) := by decide
/-- Both phases are entered, each by its request. -/
theorem witness_SetRelayConfirms_phases :
    let a := moved (.call (.setRelay 8 true)) opened
    let b := { opened with call := .relaySet 8 true }
    (step a = .next (after (step a)) ∧ (∀ k, a.nextInput.move ≠ .turn k) ∧ (after (step a)).call = .relaySet 8 true) ∧
    (step b = .next (after (step b)) ∧ (∀ k, b.nextInput.move ≠ .turn k) ∧
      (after (step b)).call = .relayConfirm 8 true) :=
  ⟨⟨next_after (by decide), not_turn (by decide), by decide⟩, ⟨next_after (by decide), not_turn (by decide), by decide⟩⟩
theorem witness_ModeLoopBounded :
    let s := { opened with call := .modeSent .momentary 3 }
    step s = .next (after (step s)) ∧
    (∀ q ∈ s.threads, ∀ m k, q.call = .modeRead m k ∨ q.call = .modeSent m k → k ≤ 3) := by
  refine ⟨next_after (by decide), ?_⟩
  intro q hq m k h
  have : q.call = .modeSent .momentary 3 := by
    have : q = ({ opened with call := .modeSent .momentary 3 } : State).thread := by
      simpa [State.threads, opened, ready, State.reset] using hq
    subst this; rfl
  rw [this] at h
  rcases h with h | h <;> simp at h
  omega
/-- The device still reports latching: the third set-mode command is presented, and no fourth. -/
theorem witness_ModeLoopBounded_presents :
    let s := { opened with
      call := .modeRead .momentary 2, seq := { opened.seq with result := { value := .mode .latching, ok := true, err := .none } } }
    let l := { s with call := .modeRead .momentary 3 }
    let w := { s with call := .modeSent .momentary 3 }
    let b := moved (.call (.setOperatingMode .momentary)) opened
    (step s = .next (after (step s)) ∧ (∀ k, s.nextInput.move ≠ .turn k) ∧
      (after (step s)).call = .modeSent .momentary 3 ∧ (after (step s)).tx = [0x16]) ∧
    (step l = .next (after (step l)) ∧ (∀ k, l.nextInput.move ≠ .turn k) ∧ (after (step l)).call = .idle) ∧
    (step w = .next (after (step w)) ∧ (∀ k, w.nextInput.move ≠ .turn k) ∧
      (after (step w)).call = .modeRead .momentary 3) ∧
    (step b = .next (after (step b)) ∧ b.call = .idle ∧ (∀ k, b.nextInput.move ≠ .turn k) ∧
      (after (step b)).call = .modeRead .momentary 0) :=
  ⟨⟨next_after (by decide), not_turn (by decide), by decide, by decide⟩,
   ⟨next_after (by decide), not_turn (by decide), by decide⟩,
   ⟨next_after (by decide), not_turn (by decide), by decide⟩,
   ⟨next_after (by decide), by decide, not_turn (by decide), by decide⟩⟩
theorem witness_ModeLoopBounded_sends :
    let s := { opened with
      call := .modeRead .momentary 2, seq := { opened.seq with result := { value := .mode .latching, ok := true, err := .none } } }
    s.fault = none ∧ s.seq.busy = false ∧ s.nextInput.move ≠ .reset ∧ (∀ k, s.nextInput.move ≠ .turn k) ∧
    s.call = .modeRead .momentary 2 ∧ s.seq.result.ok = true ∧
    s.seq.result.value.modeRead ≠ readingOf .momentary ∧ 2 < 3 ∧ s.seq.rsmState = .idle ∧ s.transportOpen = true ∧
    s.gateHeld = false ∧ s.nextInput.writeFault = none :=
  ⟨by decide, by decide, by decide, not_turn (by decide), by decide, by decide, by decide, by decide, by decide,
   by decide, by decide, by decide⟩

end Sys2Proof.Tests
end

section
/-! PROOFS of the family 10_state.md: the control invariant, the buffers' capacity, the configuration, a busy block and
the host's move, the Session's promises, a command's meaning chosen by a step, and reset. A property that every move of
a step keeps is kept by the step, so an invariant is shown move by move. -/

namespace Sys2Proof.Machine

/-! ## What the outermost moves change -/

@[simp] theorem switchTo_gateHeld (k : Nat) (s : State) : (s.switchTo k).gateHeld = s.gateHeld := by
  unfold State.switchTo; split <;> rfl

@[simp] theorem switchTo_cfg (k : Nat) (s : State) : (s.switchTo k).cfg = s.cfg := by
  unfold State.switchTo; split <;> rfl

theorem threads_powerOn (s : State) : ∀ t ∈ s.powerOn.threads, t = Thread.reset := by
  simp [State.threads, State.thread, Thread.reset]

theorem threads_closeSession (s : State) : ∀ t ∈ s.closeSession.threads, t.seq = Sequencer.reset := by
  simp [State.threads, State.thread]

theorem OperationOnly.cfg {s t : State} (h : OperationOnly s t) : t.cfg = s.cfg := by rw [h]

theorem OperationOnly.parked {s t : State} (h : OperationOnly s t) : t.parked = s.parked := by rw [h]

/-- A Session's act that presents a request has changed nothing but what the Session owns. -/
theorem SessionAct.Orderly.sessionOnly {s u : State} {r : Request} (h : (SessionAct.present r u).Orderly s) :
    SessionOnly s u := by
  obtain ⟨_, _, e, hu⟩ | ⟨_, e, _⟩ | ⟨_, e, _⟩ := h <;> cases e
  exact hu

/-! ## A property kept by every move is kept by a step -/

/-- `P` is kept by each move a step can make: reset, a turn, what the host and the Session do to what they own, closing
the session, remembering and taking a cancel, accepting a request, and a step of the operation in progress. -/
structure KeptByMoves (P : State → Prop) : Prop where
  powerOn : ∀ {s}, P s → P s.powerOn
  turn : ∀ {s} k, P s → P (s.switchTo k)
  owned : ∀ {s t}, SessionOnly s t → P s → P t
  close : ∀ {s}, P s → P s.closeSession
  noteCancel : ∀ {s}, P s → P s.noteCancel
  cancel : ∀ {s}, P s → P s.cancelOperation
  accept : ∀ {s} r, s.seq.busy = false → P s → P (s.accept r)
  operation : ∀ {s t}, s.fault = none → P s → s.operation.answer = .next t → P t

namespace KeptByMoves

variable {P : State → Prop}

theorem act (K : KeptByMoves P) {s t : State} {a : SessionAct} (hf : s.fault = none) (hb : s.seq.busy = false)
    (ho : a.Orderly s) (hs : P s) (h : a.plan.answer = .next t) : P t := by
  rcases SessionAct.plan_cases h with ⟨r, u, rfl, hop⟩ | rfl
  · have hu := ho.sessionOnly
    have hfu : (u.accept r).fault = none := by rw [hu]; exact hf
    have hbu : u.seq.busy = false := by rw [hu]; exact hb
    exact K.operation hfu (K.accept r hbu (K.owned hu hs)) hop
  · obtain ⟨_, _, e, _⟩ | ⟨_, e, hu⟩ | ⟨_, e, hu⟩ := ho <;> cases e
    · exact K.owned hu hs
    · exact K.owned hu (K.close hs)

theorem idleStep (K : KeptByMoves P) {s t : State} (hf : s.fault = none) (hb : s.seq.busy = false) (hs : P s)
    (h : s.idleStep.answer = .next t) : P t := by
  obtain rfl | ⟨r, _, _, ha⟩ | ⟨_, _, _, rfl⟩ | ⟨_, _, _, rfl⟩ | ⟨c, _, ha, _⟩ := idleStep_cases h
  · exact hs
  · exact K.operation (s := s.accept r) hf (K.accept r hb hs) ha
  · exact K.owned rfl hs
  · exact K.owned rfl hs
  · exact K.act hf hb (callStart_orderly c s) hs ha

theorem step (K : KeptByMoves P) {s t : State} (hs : P s.sample) (h : step s = .next t) : P t := by
  obtain ⟨_, rfl⟩ | ⟨_, k, _, rfl⟩ | ⟨hf, _, _, ht⟩ := step_cases h
  · exact K.powerOn hs
  · exact K.turn k hs
  · have hf : s.sample.fault = none := hf
    obtain ⟨_, rfl⟩ | ⟨_, ha⟩ | ⟨hb, _, ha⟩ | ⟨hb, _, ha⟩ := threadStep_cases ht
    · exact K.cancel (K.noteCancel hs)
    · exact K.operation (s := s.sample.noteCancel) hf (K.noteCancel hs) ha
    · exact K.idleStep hf hb hs ha
    · exact K.act hf hb (callResume_orderly _) hs ha

end KeptByMoves

/-! ## Legal registers -/

namespace Sequencer

theorem Legal.supIdle {q : Sequencer} (h : q.Legal) (ho : q.opState ≠ .resync) : q.supState = .idle :=
  by_contra fun hs => ho (h.supOnlyInResync hs)

/-- With the supervisor and the read at rest, little is left to ask. -/
theorem legal_of_rested {q : Sequencer} (hs : q.supState = .idle) (hr : q.rsmState = .idle) (hd : q.opState ≠ .done)
    (hc : q.attemptCnt ≤ Config.syncMaxAttempts) (hp : q.idleMs % Config.pollMs = 0) (ha : q.acc = []) : q.Legal where
  idleRests _ := ⟨hs, hr⟩
  supOnlyInResync h := absurd hs h
  attemptsBounded := hc
  neverDone := hd
  attemptCounted h := absurd hs h
  payloadInRange h := absurd hs h
  sleepRoom h := by simp [hs] at h
  readInAttempt _ h := absurd hr h
  bareRead _ h := absurd hr h
  wholePolls := hp
  bufferEmpty _ := ha
  fullRead h := by simp [hr] at h

/-- The supervisor between two exchanges. -/
theorem legal_of_supervising {q : Sequencer} (ho : q.opState = .resync) (hr : q.rsmState = .idle)
    (h1 : 1 ≤ q.attemptCnt) (hc : q.attemptCnt ≤ Config.syncMaxAttempts) (hw : q.verification.wf = true)
    (hsl : q.supState = .sleeping → q.attemptCnt < Config.syncMaxAttempts) (hp : q.idleMs % Config.pollMs = 0)
    (ha : q.acc = []) : q.Legal where
  idleRests h := by simp [ho] at h
  supOnlyInResync _ := ho
  attemptsBounded := hc
  neverDone := by simp [ho]
  attemptCounted _ := h1
  payloadInRange _ := hw
  sleepRoom := hsl
  readInAttempt _ h := absurd hr h
  bareRead _ h := absurd hr h
  wholePolls := hp
  bufferEmpty _ := ha
  fullRead h := by simp [hr] at h

theorem legal_reset : Sequencer.reset.Legal :=
  legal_of_rested rfl rfl (by decide) (by decide) (by decide) rfl

/-- The registers of an operation that ends, or goes on, with the supervisor and the read at rest. -/
theorem Legal.rested {q q' : Sequencer} (h : q.Legal) (hs : q'.supState = .idle) (hr : q'.rsmState = .idle)
    (hd : q'.opState ≠ .done) (hc : q'.attemptCnt = q.attemptCnt) (hp : q'.idleMs = q.idleMs) (ha : q'.acc = []) :
    q'.Legal :=
  legal_of_rested hs hr hd (hc ▸ h.attemptsBounded) (hp ▸ h.wholePolls) ha

theorem Legal.readStarted {q : Sequencer} (h : q.Legal) (e : Int) (t : Nat) (hi : q.opState ≠ .idle)
    (hs : q.opState = .resync → q.supState = .attempt) (hb : q.req = .synchronize → q.opState = .resync) :
    (q.rsmStart e t).Legal :=
  { h with
    idleRests := fun ho => absurd ho hi
    readInAttempt := fun ho _ => hs ho
    bareRead := fun hq _ => hb hq
    wholePolls := rfl
    bufferEmpty := fun _ => rfl
    fullRead := nofun }

/-- The end of a read, satisfied or not. -/
theorem Legal.readEnded {q : Sequencer} (h : q.Legal) (r : Response) :
    ({ q with acc := [], rsmState := .idle, resp := r } : Sequencer).Legal :=
  { h with
    idleRests := fun ho => ⟨(h.idleRests ho).1, rfl⟩
    readInAttempt := fun _ hr => absurd rfl hr
    bareRead := fun _ hr => absurd rfl hr
    bufferEmpty := fun _ => rfl
    fullRead := nofun }

theorem rsmFinish_eq (q : Sequencer) :
    q.rsmFinish = { q with acc := [], rsmState := .idle, resp := q.rsmFinish.resp } := by
  unfold rsmFinish; split <;> rfl

@[simp] theorem rsmFinish_rsmState (q : Sequencer) : q.rsmFinish.rsmState = .idle := by rw [rsmFinish_eq]
@[simp] theorem rsmFinish_acc (q : Sequencer) : q.rsmFinish.acc = [] := by rw [rsmFinish_eq]
@[simp] theorem rsmFinish_opState (q : Sequencer) : q.rsmFinish.opState = q.opState := by rw [rsmFinish_eq]
@[simp] theorem rsmFinish_supState (q : Sequencer) : q.rsmFinish.supState = q.supState := by rw [rsmFinish_eq]

theorem Legal.rsmFinish {q : Sequencer} (h : q.Legal) : q.rsmFinish.Legal := by
  rw [rsmFinish_eq]; exact h.readEnded _

/-- The exits of a read step keep everything but the read's state, which is satisfied only with enough bytes. -/
theorem rsmExit_eq (q : Sequencer) : q.rsmExit = { q with rsmState := q.rsmExit.rsmState } := by
  obtain e | e | e := rsmExit_cases q <;> rw [e]

theorem rsmExit_satisfied {q : Sequencer} (ha : q.rsmState = .accumulating) (h : q.rsmExit.rsmState = .satisfied) :
    1 ≤ q.acc.length ∧ q.rsmExpected ≤ q.acc.length := by
  unfold rsmExit at h
  split_ifs at h with h1 h2 h3
  · omega
  · omega
  · simp [ha] at h

theorem rsmExit_reading {q : Sequencer} (ha : q.rsmState = .accumulating) : q.rsmExit.rsmState ≠ .idle := by
  obtain e | e | e := rsmExit_cases q <;> rw [e] <;> simp [ha]

theorem Legal.rsmExit {q : Sequencer} (h : q.Legal) (ha : q.rsmState = .accumulating) : q.rsmExit.Legal := by
  have reading : q.rsmState ≠ .idle := by simp [ha]
  rw [rsmExit_eq]
  exact
    { h with
      idleRests := fun ho => absurd (h.idleRests ho).2 reading
      readInAttempt := fun ho _ => h.readInAttempt ho reading
      bareRead := fun hq _ => h.bareRead hq reading
      bufferEmpty := fun hr => absurd hr (rsmExit_reading ha)
      fullRead := rsmExit_satisfied ha }

/-- The registers of a read step before its exits: more bytes, or a longer idle time of whole polls. -/
theorem Legal.accumulated {q : Sequencer} (h : q.Legal) (ha : q.rsmState = .accumulating) (bs : Bytes)
    (idle slept : Nat) (hp : idle % Config.pollMs = 0) :
    ({ q with acc := bs, idleMs := idle, sleptMs := slept } : Sequencer).Legal :=
  { h with
    wholePolls := hp
    bufferEmpty := fun hr => by simp [ha] at hr
    fullRead := fun hr => by simp [ha] at hr }

theorem Legal.rsmTake {q : Sequencer} (h : q.Legal) (ha : q.rsmState = .accumulating) (bs : Bytes) :
    (q.rsmTake bs).Legal :=
  h.accumulated ha _ 0 q.sleptMs rfl

theorem Legal.rsmSleep {q : Sequencer} (h : q.Legal) (ha : q.rsmState = .accumulating) : q.rsmSleep.Legal :=
  h.accumulated ha q.acc _ _ (by simp [h.wholePolls])

theorem Legal.beginAttempt {q : Sequencer} (h : q.Legal) (hs : q.supState = .sleeping) : q.beginAttempt.Legal := by
  have active : q.supState ≠ .idle := by simp [hs]
  exact
    { h with
      idleRests := fun ho => absurd (h.idleRests ho).1 active
      supOnlyInResync := fun _ => h.supOnlyInResync active
      attemptsBounded := h.sleepRoom hs
      attemptCounted := fun _ => Nat.le_add_left 1 _
      payloadInRange := fun _ => h.payloadInRange active
      sleepRoom := nofun
      readInAttempt := fun _ _ => rfl }

end Sequencer

/-! ## The control invariant of the requester in turn -/

/-- The control invariant as the requester in turn sees it, with `n` of the others in an exchange. -/
structure State.Controlled (n : Nat) (s : State) : Prop where
  legal : s.seq.Legal
  gate : s.seq.inExchange.toNat + n = s.gateHeld.toNat

/-- How many of the parked requesters are in an exchange. -/
def State.parkedHolders (s : State) : Nat := s.parked.countP (fun t => t.seq.inExchange)

theorem inv_iff (s : State) : s.Inv ↔ s.Controlled s.parkedHolders ∧ ∀ t ∈ s.parked, t.seq.Legal := by
  have holders : s.holders = s.seq.inExchange.toNat + s.parkedHolders := by
    simp only [State.holders, State.threads, State.parkedHolders, List.countP_cons, State.thread]
    cases s.seq.inExchange <;> simp [Nat.add_comm]
  have tokens : (if s.gateHeld then 1 else 0) = s.gateHeld.toNat := by cases s.gateHeld <;> rfl
  constructor
  · rintro ⟨hl, hg⟩
    simp only [State.threads, List.forall_mem_cons] at hl
    exact ⟨⟨hl.1, by rw [← holders, hg, tokens]⟩, hl.2⟩
  · rintro ⟨⟨hl, hg⟩, hp⟩
    exact ⟨by simpa only [State.threads, List.forall_mem_cons] using ⟨hl, hp⟩, by rw [holders, hg, tokens]⟩

namespace State.Controlled

variable {n : Nat} {s t : State} {i : Instr} {m : CommandMeaning}

theorem others_idle (h : s.Controlled n) (hx : s.seq.rsmState ≠ .idle) : n = 0 := by
  have reading : s.seq.inExchange = true := decide_eq_true hx
  have gate := h.gate
  rw [reading, Bool.toNat_true] at gate
  have one_token := Bool.toNat_le s.gateHeld
  omega

theorem all_idle (h : s.Controlled n) (hg : s.gateHeld = false) : s.seq.rsmState = .idle ∧ n = 0 := by
  have none_reading : s.seq.inExchange.toNat + n = 0 := h.gate.trans (congrArg Bool.toNat hg)
  obtain ⟨turn, others⟩ := Nat.add_eq_zero_iff.1 none_reading
  exact ⟨by simpa [Sequencer.inExchange] using turn, others⟩

/-- Outside an exchange only the registers change. -/
theorem at_rest (h : s.Controlled n) (hr : s.seq.rsmState = .idle) (hl : t.seq.Legal) (hr' : t.seq.rsmState = .idle)
    (hg : t.gateHeld = s.gateHeld) : t.Controlled n :=
  ⟨hl, by rw [hg, ← h.gate]; simp [Sequencer.inExchange, hr, hr']⟩

/-- An exchange ends and the gate is freed. -/
theorem freed (h : s.Controlled n) (hx : s.seq.rsmState ≠ .idle) (hl : t.seq.Legal) (hr : t.seq.rsmState = .idle)
    (hg : t.gateHeld = false) : t.Controlled n :=
  ⟨hl, by simp [Sequencer.inExchange, hr, hg, h.others_idle hx]⟩

/-- An exchange goes on. -/
theorem still_reading (h : s.Controlled n) (hx : s.seq.rsmState ≠ .idle) (hl : t.seq.Legal)
    (hx' : t.seq.rsmState ≠ .idle) (hg : t.gateHeld = s.gateHeld) : t.Controlled n :=
  ⟨hl, by rw [hg, ← h.gate]; simp [Sequencer.inExchange, hx, hx']⟩

theorem exchangeFailed (h : s.Controlled n) (hg : s.gateHeld = false) (k : Nat) : (s.exchangeFailed i k).Controlled n :=
  ⟨h.legal, h.gate.trans (congrArg Bool.toNat hg)⟩

theorem exchangeStarted (h : s.Controlled n) (hg : s.gateHeld = false) (e : Int) (tm : Nat)
    (hi : s.seq.opState ≠ .idle) (hs : s.seq.opState = .resync → s.seq.supState = .attempt)
    (hb : s.seq.req = .synchronize → s.seq.opState = .resync) : (s.exchangeStarted i e tm).Controlled n :=
  ⟨h.legal.readStarted e tm hi hs hb, by
    simp [State.exchangeStarted, Sequencer.rsmStart, Sequencer.inExchange, (h.all_idle hg).2]⟩

theorem endExchange (h : s.Controlled n) (hx : s.seq.rsmState ≠ .idle) : s.endExchange.Controlled n :=
  h.freed hx h.legal.rsmFinish (by simp) rfl

theorem rsmStep (h : s.Controlled n) (ha : s.seq.rsmState = .accumulating) : s.rsmStep.Controlled n := by
  have hx : s.seq.rsmState ≠ .idle := by simp [ha]
  obtain ⟨_, _, e⟩ | ⟨_, _, e⟩ | ⟨_, e⟩ := rsmStep_cases s <;> rw [e]
  · exact h.freed hx h.legal.rsmFinish (by simp) rfl
  · exact h.still_reading hx ((h.legal.rsmTake ha s.rx).rsmExit ha) (Sequencer.rsmExit_reading ha) rfl
  · exact h.still_reading hx ((h.legal.rsmSleep ha).rsmExit ha) (Sequencer.rsmExit_reading ha) rfl

theorem raise (h : s.Controlled n) (hr : s.seq.rsmState = .idle) (v : ResultValue) (e : ErrorCode) :
    (s.raise v e).Controlled n :=
  h.at_rest hr (h.legal.rested rfl rfl (by simp) rfl rfl (h.legal.bufferEmpty hr)) rfl rfl

theorem finish (h : s.Controlled n) (hr : s.seq.rsmState = .idle) (hs : s.seq.supState = .idle) (v : ResultValue)
    (e : ErrorCode) : (s.finish v e).Controlled n :=
  h.at_rest hr (h.legal.rested hs hr (by simp) rfl rfl (h.legal.bufferEmpty hr)) hr rfl

/-- The operation enters another state, or a request is accepted, with the supervisor and the read at rest. -/
theorem enter (h : s.Controlled n) (hr : s.seq.rsmState = .idle) {q : Sequencer} (hs : q.supState = .idle)
    (hq : q = { s.seq with opState := q.opState, supState := q.supState, req := q.req, cmd := q.cmd })
    (hd : q.opState ≠ .done) : ({ s with seq := q } : State).Controlled n := by
  have hr' : q.rsmState = .idle := by rw [hq]; exact hr
  exact h.at_rest hr (h.legal.rested hs hr' hd (by rw [hq]) (by rw [hq]) (by rw [hq]; exact h.legal.bufferEmpty hr))
    hr' rfl

/-! ## The supervisor -/

theorem resyncStart (h : s.Controlled n) (hr : s.seq.rsmState = .idle) (ho : s.seq.opState = .resync)
    (v : ResultValue) : (s.resyncStart v).Controlled n := by
  have ha := h.legal.bufferEmpty hr
  have hp := h.legal.wholePolls
  obtain ⟨_, e⟩ | ⟨p, hpw, e⟩ := resyncStart_cases v s <;> rw [e]
  · exact h.at_rest hr (Sequencer.legal_of_rested rfl rfl (by simp) (Nat.zero_le _) hp ha) rfl rfl
  · have hw : (Instr.verifyPassword p.1 p.2.1 p.2.2).wf = true := decide_eq_true (wireValue_of_encodePassword hpw)
    exact h.at_rest hr
      (Sequencer.legal_of_supervising ho hr (Nat.le_refl 1) (Nat.le_add_left 1 9) hw nofun hp ha) hr rfl

theorem roundTrip (hf : s.fault = none) (h : s.Controlled n) (hs : s.seq.supState = .attempt) :
    s.roundTrip.Controlled n := by
  have ho : s.seq.opState = .resync := h.legal.supOnlyInResync (by simp [hs])
  obtain ⟨_, e⟩ | ⟨hg, k, e⟩ | ⟨hg, e⟩ := roundTrip_cases hf <;> rw [e]
  · exact h
  · exact h.exchangeFailed hg k
  · exact h.exchangeStarted hg _ _ (by simp [ho]) (fun _ => hs) (fun _ => ho)

theorem roundTripEnd (h : s.Controlled n) (hr : s.seq.rsmState = .idle) (hs : s.seq.supState = .attempt) :
    s.roundTripEnd.Controlled n := by
  have active : s.seq.supState ≠ .idle := by simp [hs]
  have ho := h.legal.supOnlyInResync active
  have h1 := h.legal.attemptCounted active
  have hw := h.legal.payloadInRange active
  have hc := h.legal.attemptsBounded
  have hp := h.legal.wholePolls
  have ha := h.legal.bufferEmpty hr
  obtain ⟨_, e⟩ | ⟨_, _, e⟩ | ⟨_, hne, e⟩ := roundTripEnd_cases s <;> rw [e] <;>
    refine h.at_rest hr (Sequencer.legal_of_supervising ho hr h1 hc hw ?_ hp ha) hr rfl
  · exact nofun
  · exact nofun
  · exact fun _ => Nat.lt_of_le_of_ne hc hne

theorem resyncSleep (h : s.Controlled n) (hr : s.seq.rsmState = .idle) (hs : s.seq.supState = .sleeping) :
    s.resyncSleep.Controlled n :=
  have slept : (s.seq.sleep Config.syncSleepMs).Legal := { h.legal with }
  h.at_rest hr (slept.beginAttempt hs) hr rfl

theorem superviseCommand (hf : s.fault = none) (h : s.Controlled n) (hr : s.seq.rsmState = .idle)
    (ho : s.seq.opState = .resync) (v : ResultValue) : (s.superviseCommand v).Controlled n := by
  unfold State.superviseCommand
  cases hs : s.seq.supState
  case idle => exact h.resyncStart hr ho v
  case attempt => exact h.roundTrip hf hs
  case sleeping => exact h.resyncSleep hr hs
  case synced => exact h.enter hr rfl rfl nofun
  case failed => exact h.raise hr _ _

theorem superviseBare (hf : s.fault = none) (h : s.Controlled n) (hr : s.seq.rsmState = .idle)
    (ho : s.seq.opState = .resync) : s.superviseBare.Controlled n := by
  unfold State.superviseBare
  cases hs : s.seq.supState
  case idle => exact h.resyncStart hr ho _
  case attempt => exact h.roundTrip hf hs
  case sleeping => exact h.resyncSleep hr hs
  case synced =>
    have resting : ({ s with seq := { s.seq with supState := .idle } } : State).Controlled n :=
      h.enter hr rfl rfl h.legal.neverDone
    exact resting.finish hr rfl _ _
  case failed => exact h.raise hr _ _

/-! ## The operation in progress -/

/-- An attempt at a command in the first try or the retry, with the supervisor at rest. -/
theorem attemptCommand (hf : s.fault = none) (h : s.Controlled n) (hr : s.seq.rsmState = .idle)
    (hs : s.seq.supState = .idle) (hi : s.seq.opState ≠ .idle) (ho : s.seq.opState ≠ .resync)
    (hq : s.seq.req ≠ .synchronize) : (s.attemptCommand i m).Controlled n := by
  obtain ⟨_, e⟩ | ⟨hg, k, e⟩ | ⟨hg, _, e⟩ | ⟨hg, _, e⟩ :=
    attemptCommand_cases (i := i) (m := m) hf <;> rw [e]
  · exact h
  · exact h.exchangeFailed hg k
  · exact h.at_rest hr (h.legal.rested hs hr (by simp) rfl rfl (h.legal.bufferEmpty hr)) hr hg.symm
  · exact h.exchangeStarted hg _ _ hi (fun c => absurd c ho) (fun c => absurd c hq)

theorem firstTry (hf : s.fault = none) (h : s.Controlled n) (hr : s.seq.rsmState = .idle)
    (ho : s.seq.opState ≠ .resync) (hq : s.seq.req ≠ .synchronize) : (s.firstTry i m).Controlled n := by
  have hs := h.legal.supIdle ho
  unfold State.firstTry
  split_ifs
  · have trying : ({ s with seq := { s.seq with opState := .firstTry, cmd := i } } : State).Controlled n :=
      h.enter hr hs rfl nofun
    exact trying.attemptCommand hf hr hs nofun nofun hq
  · have trying : ({ s with seq := { s.seq with opState := .firstTry } } : State).Controlled n :=
      h.enter hr hs rfl nofun
    exact trying.raise hr _ _

theorem syncStart (h : s.Controlled n) (hr : s.seq.rsmState = .idle) (ho : s.seq.opState ≠ .resync) :
    s.syncStart.Controlled n := by
  have entered : ({ s with seq := { s.seq with opState := .resync } } : State).Controlled n :=
    h.enter hr (h.legal.supIdle ho) rfl nofun
  unfold State.syncStart
  split_ifs
  · exact entered.resyncStart hr rfl _
  · exact entered.raise hr _ _

/-- What follows a read of the operation, given that a read in a resynchronisation was an attempt's. -/
theorem afterRead (h : s.Controlled n) (hr : s.seq.rsmState = .idle)
    (hs : s.seq.opState = .resync → s.seq.supState = .attempt) : (s.afterRead m).Controlled n := by
  unfold State.afterRead
  cases ho : s.seq.opState
  case resync => exact h.roundTripEnd hr (hs ho)
  all_goals
    have hsup : s.seq.supState = .idle := h.legal.supIdle (by simp [ho])
    simp only
    split
    · exact h.finish hr hsup _ _
  case retry => exact h.raise hr _ _
  all_goals exact h.enter hr hsup rfl nofun

theorem operateStep (hf : s.fault = none) (h : s.Controlled n) (hq : s.seq.req ≠ .synchronize) :
    (s.operateStep i m).Controlled n := by
  have ended (hx : s.seq.rsmState ≠ .idle) : (s.endExchange.afterRead m).Controlled n :=
    (h.endExchange hx).afterRead (by simp) (by simpa using fun ho => h.legal.readInAttempt ho hx)
  unfold State.operateStep
  cases hr : s.seq.rsmState
  case accumulating => exact h.rsmStep hr
  case satisfied | timedOut => exact ended (by simp [hr])
  case idle =>
    cases ho : s.seq.opState
    case resync => exact h.superviseCommand hf hr ho _
    case retry => exact h.attemptCommand hf hr (h.legal.supIdle (by simp [ho])) (by simp [ho]) (by simp [ho]) hq
    all_goals exact h.firstTry hf hr (by simp [ho]) hq

theorem syncStep (hf : s.fault = none) (h : s.Controlled n) (hq : s.seq.req = .synchronize) :
    s.syncStep.Controlled n := by
  have ended (hx : s.seq.rsmState ≠ .idle) : s.endExchange.roundTripEnd.Controlled n :=
    (h.endExchange hx).roundTripEnd (by simp)
      (by simpa using h.legal.readInAttempt (h.legal.bareRead hq hx) hx)
  unfold State.syncStep
  cases hr : s.seq.rsmState
  case accumulating => exact h.rsmStep hr
  case satisfied | timedOut => exact ended (by simp [hr])
  case idle =>
    cases ho : s.seq.opState
    case resync => exact h.superviseBare hf hr ho
    all_goals exact h.syncStart hr (by simp [ho])

theorem operation (hf : s.fault = none) (h : s.Controlled n) (ha : s.operation.answer = .next t) : t.Controlled n := by
  obtain ⟨e, hc, rfl⟩ | ⟨hc, rfl⟩ | ⟨i, hc, rfl⟩ := operation_cases hf ha
  · exact h.raise (currentCommand_error hc).2.1 _ _
  · exact h.syncStep hf (currentCommand_none hc)
  · exact h.operateStep hf (currentCommand_some hc)

theorem cancelOperation (h : s.Controlled n) : s.cancelOperation.Controlled n := by
  unfold State.cancelOperation State.abandonExchange
  by_cases hr : s.seq.rsmState = .idle
  · rw [if_neg (by simp [Sequencer.inExchange, hr])]
    exact h.raise hr _ _
  · rw [if_pos (by simp [Sequencer.inExchange, hr])]
    exact raise (h.freed hr (h.legal.readEnded ⟨[], false⟩) rfl rfl) rfl _ _

theorem accept (h : s.Controlled n) (hb : s.seq.busy = false) (r : Request) : (s.accept r).Controlled n := by
  obtain ⟨hs, hr⟩ := h.legal.idleRests (by simpa [Sequencer.busy] using hb)
  exact h.enter hr hs rfl nofun

end State.Controlled

/-! ## The control invariant of every requester -/

/-- A move of the requester in turn that leaves the others alone. -/
theorem State.Inv.of_controlled {s t : State} (h : s.Inv) (hp : t.parked = s.parked)
    (ht : ∀ n, s.Controlled n → t.Controlled n) : t.Inv := by
  obtain ⟨hc, hl⟩ := (inv_iff s).1 h
  exact (inv_iff t).2 ⟨by rw [State.parkedHolders, hp]; exact ht _ hc, by rw [hp]; exact hl⟩

theorem inv_of_threads_reset {s : State} (hq : ∀ t ∈ s.threads, t.seq = Sequencer.reset) (hg : s.gateHeld = false) :
    s.Inv where
  legal t ht := hq t ht ▸ Sequencer.legal_reset
  gate := by
    simp only [State.holders, hg, Bool.false_eq_true, if_false, List.countP_eq_zero]
    intro t ht
    simp [hq t ht, Sequencer.inExchange, Sequencer.reset]

theorem State.Inv.switchTo {s : State} (h : s.Inv) (k : Nat) : (s.switchTo k).Inv := by
  have perm := switchTo_perm k s
  exact ⟨fun t ht => h.legal t (perm.mem_iff.1 ht), by rw [switchTo_gateHeld, ← h.gate]; exact perm.countP_eq _⟩

theorem inv_keptByMoves : KeptByMoves State.Inv where
  powerOn {s} _ := inv_of_threads_reset (fun t ht => by rw [threads_powerOn s t ht]; rfl) rfl
  turn k h := h.switchTo k
  owned hu h := by rw [hu]; exact h.of_controlled rfl fun _ c => ⟨c.legal, c.gate⟩
  close {s} _ := inv_of_threads_reset (threads_closeSession s) rfl
  noteCancel h := h.of_controlled rfl fun _ c => ⟨{ c.legal with }, c.gate⟩
  cancel {s} h := h.of_controlled (cancelOperation_frame s).parked fun _ c => c.cancelOperation
  accept r hb h := h.of_controlled rfl fun _ c => c.accept hb r
  operation hf h ha := h.of_controlled (operation_frame hf ha).parked fun _ c => c.operation hf ha

/-- Settles O45: every move keeps the control invariant, so a step does. -/
theorem stepKeepsInv : Obligations.StepKeepsInv := by
  intro s t h ht
  have sampled : s.sample.Inv := ⟨h.legal, h.gate⟩
  exact inv_keptByMoves.step sampled ht

/-! ## The response buffer's capacity -/

/-- The response buffer of `t` is that of `s`, or empty. -/
def BufferKept (s t : State) : Prop := t.seq.acc = s.seq.acc ∨ t.seq.acc = []

theorem attemptCommand_buffer {s : State} (hf : s.fault = none) (i : Instr) (m : CommandMeaning) :
    BufferKept s (s.attemptCommand i m) := by
  obtain ⟨_, e⟩ | ⟨_, _, e⟩ | ⟨_, _, e⟩ | ⟨_, _, e⟩ :=
    attemptCommand_cases (i := i) (m := m) hf <;> rw [e]
  · exact .inl rfl
  · exact .inl rfl
  · exact .inl rfl
  · exact .inr rfl

theorem roundTrip_buffer {s : State} (hf : s.fault = none) : BufferKept s s.roundTrip := by
  obtain ⟨_, e⟩ | ⟨_, _, e⟩ | ⟨_, e⟩ := roundTrip_cases hf <;> rw [e]
  · exact .inl rfl
  · exact .inl rfl
  · exact .inr rfl

@[simp] theorem resyncStart_acc (v : ResultValue) (s : State) : (s.resyncStart v).seq.acc = s.seq.acc := by
  obtain ⟨_, e⟩ | ⟨_, _, e⟩ := resyncStart_cases v s
  · rw [e]; rfl
  · rw [e]

@[simp] theorem roundTripEnd_acc (s : State) : s.roundTripEnd.seq.acc = s.seq.acc := by
  obtain ⟨_, e⟩ | ⟨_, _, e⟩ | ⟨_, _, e⟩ := roundTripEnd_cases s <;> rw [e] <;> rfl

@[simp] theorem afterRead_acc (m : CommandMeaning) (s : State) : (s.afterRead m).seq.acc = s.seq.acc := by
  unfold State.afterRead
  cases s.seq.opState
  case resync => exact roundTripEnd_acc s
  all_goals simp only; split <;> rfl

theorem superviseCommand_buffer {s : State} (hf : s.fault = none) (v : ResultValue) :
    BufferKept s (s.superviseCommand v) := by
  unfold State.superviseCommand
  cases s.seq.supState
  case idle => exact .inl (resyncStart_acc v s)
  case attempt => exact roundTrip_buffer hf
  all_goals exact .inl rfl

theorem superviseBare_buffer {s : State} (hf : s.fault = none) : BufferKept s s.superviseBare := by
  unfold State.superviseBare
  cases s.seq.supState
  case idle => exact .inl (resyncStart_acc _ s)
  case attempt => exact roundTrip_buffer hf
  all_goals exact .inl rfl

theorem firstTry_buffer {s : State} (hf : s.fault = none) (i : Instr) (m : CommandMeaning) :
    BufferKept s (s.firstTry i m) := by
  unfold State.firstTry
  split_ifs
  · exact attemptCommand_buffer (s := { s with seq := { s.seq with opState := .firstTry, cmd := i } }) hf i m
  · exact .inl rfl

@[simp] theorem syncStart_acc (s : State) : s.syncStart.seq.acc = s.seq.acc := by
  unfold State.syncStart
  split_ifs
  · exact resyncStart_acc _ _
  · rfl

/-- Outside a read step no bytes join the buffer. -/
theorem operateStep_buffer {s : State} (hf : s.fault = none) (hr : s.seq.rsmState ≠ .accumulating) (i : Instr)
    (m : CommandMeaning) : BufferKept s (s.operateStep i m) := by
  unfold State.operateStep
  cases h : s.seq.rsmState
  case accumulating => exact absurd h hr
  case satisfied | timedOut => exact .inr (by simp)
  case idle =>
    cases s.seq.opState
    case resync => exact superviseCommand_buffer hf _
    case retry => exact attemptCommand_buffer hf i m
    all_goals exact firstTry_buffer hf i m

theorem syncStep_buffer {s : State} (hf : s.fault = none) (hr : s.seq.rsmState ≠ .accumulating) :
    BufferKept s s.syncStep := by
  unfold State.syncStep
  cases h : s.seq.rsmState
  case accumulating => exact absurd h hr
  case satisfied | timedOut => exact .inr (by simp)
  case idle =>
    cases s.seq.opState
    case resync => exact superviseBare_buffer hf
    all_goals exact .inl (syncStart_acc s)

theorem cancelOperation_buffer (s : State) : BufferKept s s.cancelOperation := by
  unfold State.cancelOperation State.abandonExchange
  split
  · exact .inr rfl
  · exact .inl rfl

theorem operateStep_of_accumulating {s : State} (hr : s.seq.rsmState = .accumulating) (i : Instr) (m : CommandMeaning) :
    s.operateStep i m = s.rsmStep := by
  simp only [State.operateStep, hr]

theorem syncStep_of_accumulating {s : State} (hr : s.seq.rsmState = .accumulating) : s.syncStep = s.rsmStep := by
  simp only [State.syncStep, hr]

/-- The buffer of the requester in turn is within `RESP_CAP`. -/
def State.BufferFits (s : State) : Prop := ∀ cap, s.cfg.respCap = some cap → s.seq.acc.length ≤ cap

namespace State.BufferFits

variable {s t : State}

theorem of_kept (h : s.BufferFits) (hc : t.cfg = s.cfg) (hk : BufferKept s t) : t.BufferFits := by
  intro cap hcap
  obtain e | e := hk <;> rw [e]
  · exact h cap (hc ▸ hcap)
  · exact Nat.zero_le cap

/-- A read step appends only what does not overflow the buffer (R203). -/
theorem rsmStep (h : s.BufferFits) : s.rsmStep.BufferFits := by
  obtain ⟨_, _, e⟩ | ⟨_, ho, e⟩ | ⟨_, e⟩ := rsmStep_cases s <;> rw [e]
  · exact h.of_kept rfl (.inr (by simp))
  · intro cap hcap
    replace hcap : s.cfg.respCap = some cap := hcap
    simp only [State.overflows, hcap, decide_eq_false_iff_not, Nat.not_lt] at ho
    rw [Sequencer.rsmExit_eq]
    simpa [Sequencer.rsmTake] using ho
  · exact h.of_kept rfl (.inl (by rw [Sequencer.rsmExit_eq]; rfl))

theorem operation (hf : s.fault = none) (h : s.BufferFits) (ha : s.operation.answer = .next t) : t.BufferFits := by
  have hc := (operation_frame hf ha).cfg
  obtain ⟨e, _, rfl⟩ | ⟨_, rfl⟩ | ⟨i, _, rfl⟩ := operation_cases hf ha
  · exact h.of_kept rfl (.inl rfl)
  · by_cases hr : s.seq.rsmState = .accumulating
    · rw [syncStep_of_accumulating hr]; exact h.rsmStep
    · exact h.of_kept hc (syncStep_buffer hf hr)
  · by_cases hr : s.seq.rsmState = .accumulating
    · rw [operateStep_of_accumulating hr]; exact h.rsmStep
    · exact h.of_kept hc (operateStep_buffer hf hr i _)

end State.BufferFits

/-- A move of the requester in turn that leaves the others and the configuration alone. -/
theorem State.WithinCapacity.of_bufferFits {s t : State} (h : s.WithinCapacity) (hc : t.cfg = s.cfg)
    (hp : t.parked = s.parked) (ht : s.BufferFits → t.BufferFits) : t.WithinCapacity := by
  intro cap hcap
  have hs := h cap (hc ▸ hcap)
  simp only [State.threads, List.forall_mem_cons, hp] at hs ⊢
  exact ⟨ht (fun c hc' => (List.forall_mem_cons.1 (h c hc')).1) cap hcap, hs.2⟩

theorem withinCapacity_of_threads_reset {s : State} (hq : ∀ t ∈ s.threads, t.seq = Sequencer.reset) :
    s.WithinCapacity := by
  intro cap _ t ht
  rw [hq t ht]
  exact Nat.zero_le cap

theorem withinCapacity_keptByMoves : KeptByMoves State.WithinCapacity where
  powerOn {s} _ := withinCapacity_of_threads_reset fun t ht => by rw [threads_powerOn s t ht]; rfl
  turn k h := fun cap hcap t ht => h cap (switchTo_cfg k _ ▸ hcap) t ((switchTo_perm k _).mem_iff.1 ht)
  owned hu h := by rw [hu]; exact h.of_bufferFits rfl rfl id
  close {s} _ := withinCapacity_of_threads_reset (threads_closeSession s)
  noteCancel h := h.of_bufferFits rfl rfl id
  cancel {s} h :=
    have frame := cancelOperation_frame s
    h.of_bufferFits frame.cfg frame.parked fun b => b.of_kept frame.cfg (cancelOperation_buffer s)
  accept _ _ h := h.of_bufferFits rfl rfl id
  operation hf h ha :=
    have frame := operation_frame hf ha
    h.of_bufferFits frame.cfg frame.parked fun b => b.operation hf ha

/-- Settles O46: only a read step appends to a buffer, and it checks the capacity first. -/
theorem stepKeepsWithinCapacity : Obligations.StepKeepsWithinCapacity := by
  intro s t h ht
  have sampled : s.sample.WithinCapacity := h
  exact withinCapacity_keptByMoves.step sampled ht

/-! ## The configuration and the inputs -/

/-- What no move writes: the configuration, the input sampled, the inputs to come and their count. -/
def State.given (s : State) : Config × Input × List Input × Nat := (s.cfg, s.now, s.inputs, s.inputCount)

theorem OperationOnly.given {s t : State} (h : OperationOnly s t) : t.given = s.given := by rw [h]; rfl

theorem given_keptByMoves (g : Config × Input × List Input × Nat) : KeptByMoves (fun s => s.given = g) where
  powerOn h := h
  turn k h := by unfold State.switchTo; split <;> exact h
  owned hu h := by rw [hu]; exact h
  close h := h
  noteCancel h := h
  cancel {s} h := (cancelOperation_frame s).given.trans h
  accept _ _ h := h
  operation hf h ha := (operation_frame hf ha).given.trans h

/-- Settles O48: sampling takes one input, and no move writes the configuration or the inputs. -/
theorem stepKeepsConfig : Obligations.StepKeepsConfig := by
  intro s t ht
  have h : t.given = s.sample.given := (given_keptByMoves _).step rfl ht
  simp only [State.given, Prod.mk.injEq] at h
  obtain ⟨hc, hn, hi, hk⟩ := h
  exact ⟨hc, hi, hk, hn⟩

/-! ## A busy block and the host's move -/

section
variable {n : Input} {l : List Input} {c : Nat}

theorem currentCommand_withInputs (s : State) : (s.withInputs n l c).currentCommand = s.currentCommand := rfl

theorem cancelOperation_withInputs (s : State) :
    (s.withInputs n l c).cancelOperation = s.cancelOperation.withInputs n l c := by
  have hq : (s.withInputs n l c).seq = s.seq := rfl
  unfold State.cancelOperation State.abandonExchange
  rw [hq]
  split <;> rfl

/-- The operation in progress reads of the input no more than whether a write fails. -/
theorem operation_withInputs {s t : State} (hf : s.fault = none) (hw : n.writeFault = s.now.writeFault)
    (h : s.operation.answer = .next t) : (s.withInputs n l c).operation.answer = .next (t.withInputs n l c) := by
  unfold State.operation
  rw [currentCommand_withInputs]
  obtain ⟨e, hc, rfl⟩ | ⟨hc, rfl⟩ | ⟨i, hc, rfl⟩ := operation_cases hf h <;> simp only [hc]
  · rfl
  · exact congrArg Host.Outcome.next (syncStep_withInputs hw)
  · have hf' : (s.withInputs n l c).fault = none := hf
    rw [Plan.answer_run, exec_of_noFault hf']
    exact congrArg Host.Outcome.next (operateStep_withInputs i _ hw)

end

theorem noteCancel_of_notAsserted {s : State} (h : s.cancelAsserted = false) : s.noteCancel = s := by
  simp [State.noteCancel, h]

theorem cancelAsserted_of_move {s : State} (h : s.now.move ≠ .cancel) : s.cancelAsserted = false := by
  simp [State.cancelAsserted, h]

/-- A busy requester's step depends on the host's move only through the cancel port. -/
theorem threadStep_withInputs {s t : State} {n : Input} {l : List Input} {c : Nat} (hf : s.fault = none)
    (hb : s.seq.busy = true) (hm : s.now.move ≠ .cancel) (hn : n.move ≠ .cancel)
    (hw : n.writeFault = s.now.writeFault) (h : s.threadStep.answer = .next t) :
    (s.withInputs n l c).threadStep.answer = .next (t.withInputs n l c) := by
  have hq : (s.withInputs n l c).seq = s.seq := rfl
  have hs := noteCancel_of_notAsserted (cancelAsserted_of_move hm)
  have hs' : (s.withInputs n l c).noteCancel = s.withInputs n l c :=
    noteCancel_of_notAsserted (cancelAsserted_of_move hn)
  simp only [State.threadStep, hb, if_true, State.busyStep, hs] at h
  simp only [State.threadStep, hq, hb, if_true, State.busyStep, hs']
  split_ifs at h ⊢
  · cases h
    exact congrArg Host.Outcome.next (cancelOperation_withInputs s)
  · exact operation_withInputs hf hw h

/-- Settles O51: a busy requester's step reads nothing of the move but a cancel. -/
theorem busyIgnoresTheHost : Obligations.BusyIgnoresTheHost := by
  intro s d rest hin hb hr hcan htn t ht
  have hd : s.nextInput = d := by simp [State.nextInput, hin]
  obtain ⟨h, _⟩ | ⟨_, k, h, _⟩ | ⟨hf, _, _, h⟩ := step_cases ht
  · exact absurd (hd ▸ h) hr
  · exact absurd (hd ▸ h) (htn k)
  have hw : d.writeFault = s.sample.now.writeFault := by rw [sample_now, hd]
  have hm : s.sample.now.move ≠ .cancel := by rw [sample_now, hd]; exact hcan
  have quiet : ({ s with inputs := { d with move := .nothing } :: rest } : State).sample =
      s.sample.withInputs { d with move := .nothing } s.sample.inputs s.sample.inputCount := by
    simp [State.sample, State.nextInput, State.withInputs, hin]
  have stepped := threadStep_withInputs (s := s.sample) (n := { d with move := .nothing }) (l := s.sample.inputs)
    (c := s.sample.inputCount) hf hb hm (by simp) hw h
  obtain ⟨-, hi, hk, -⟩ := stepKeepsConfig s t ht
  rw [step_of_thread (s := { s with inputs := { d with move := .nothing } :: rest }) hf (by simp [State.nextInput])
    (by simp [State.nextInput]), quiet, stepped, sample_inputs, sample_inputCount, ← hi, ← hk]
  rfl

/-! ## The Session's promises -/

@[simp] theorem CallPhase.opening_idle : CallPhase.idle.opening = false := rfl

theorem CallPhase.ne_idle_of_opening {p : CallPhase} (h : p.opening = true) : p ≠ .idle := by
  rintro rfl
  simp at h

theorem Thread.calling_eq : Thread.calling = fun t => decide (t.call ≠ .idle) := rfl

theorem Thread.calling_iff {t : Thread} : t.calling = true ↔ t.call ≠ .idle := by simp [Thread.calling]

/-- A requester in the middle of a public operation, counted with the one in turn. -/
theorem countP_calling (s : State) :
    s.threads.countP Thread.calling = s.parked.countP Thread.calling + if s.call = .idle then 0 else 1 := by
  have turn : s.thread.calling = decide (s.call ≠ .idle) := rfl
  by_cases hc : s.call = .idle <;> simp [State.threads, turn, hc]

theorem any_calling (s : State) :
    s.threads.any Thread.calling = (decide (s.call ≠ .idle) || s.parked.any Thread.calling) := rfl

theorem any_opening (s : State) :
    s.threads.any (fun t => t.call.opening) = (s.call.opening || s.openingElsewhere) := rfl

namespace State.SessionInv

variable {s t : State}

/-- The promises rest on nothing but the requesters' public operations, in any order, and what the Session owns. -/
theorem of_perm (h : s.SessionInv) (hp : (t.threads.map Thread.call).Perm (s.threads.map Thread.call))
    (hs : t.session = s.session) (hw : t.curPw = s.curPw) (ht : t.transportOpen = s.transportOpen) : t.SessionInv := by
  have opening : t.threads.any (fun t => t.call.opening) = s.threads.any (fun t => t.call.opening) := by
    simpa only [List.any_map, Function.comp_def] using hp.any_eq (f := CallPhase.opening)
  have calling : t.threads.any Thread.calling = s.threads.any Thread.calling := by
    simpa only [Thread.calling_eq, List.any_map, Function.comp_def] using
      hp.any_eq (f := fun c => decide (c ≠ .idle))
  have count : t.threads.countP Thread.calling = s.threads.countP Thread.calling := by
    simpa only [Thread.calling_eq, List.countP_map, Function.comp_def] using
      hp.countP_eq fun c => decide (c ≠ .idle)
  constructor <;> simp only [hs, hw, ht, opening, calling, count]
  exacts [h.closedBlank, h.openTransport, h.onePassword, h.authIdentity, h.openAuth, h.callsOpen, h.openAlone]

theorem of_operationOnly (h : s.SessionInv) (ho : OperationOnly s t) : t.SessionInv := by
  rw [ho]
  exact h.of_perm (.refl _) rfl rfl rfl

/-- A closed session, with no public operation running. -/
theorem of_closed (hs : s.session = Session.reset) (hc : ∀ t ∈ s.threads, t.call = .idle) : s.SessionInv := by
  have calling : s.threads.any Thread.calling = false := by
    simpa [List.any_eq_false, Thread.calling] using hc
  have opening : s.threads.any (fun t => t.call.opening) = false :=
    List.any_eq_false.2 fun t ht => by simp [hc t ht]
  constructor <;> simp [hs, Session.reset, calling, opening]

theorem idle_of_closed (h : s.SessionInv) (hs : s.session.isOpen = false) : ∀ t ∈ s.threads, t.call = .idle := by
  have calling : s.threads.any Thread.calling = false := by
    by_contra hc
    simp [h.callsOpen (by simpa using hc)] at hs
  simpa [List.any_eq_false, Thread.calling] using calling

/-- Beside an `open` in turn no other requester runs a public operation. -/
theorem others_idle_of_opening (h : s.SessionInv) (ho : s.call.opening = true) : ∀ t ∈ s.parked, t.call = .idle := by
  have alone := h.openAlone (by rw [any_opening, ho]; rfl)
  rw [countP_calling, if_neg (CallPhase.ne_idle_of_opening ho)] at alone
  have none_calling : s.parked.countP Thread.calling = 0 := by omega
  simpa [List.countP_eq_zero, Thread.calling] using none_calling

/-- Beside an `open` elsewhere the requester in turn runs none. -/
theorem idle_of_openingElsewhere (h : s.SessionInv) (ho : s.openingElsewhere = true) : s.call = .idle := by
  by_contra hc
  have alone := h.openAlone (by rw [any_opening, ho, Bool.or_true])
  rw [countP_calling, if_neg hc] at alone
  obtain ⟨t, ht, hopen⟩ := List.any_eq_true.1 ho
  have : 0 < s.parked.countP Thread.calling :=
    List.countP_pos_iff.2 ⟨t, ht, Thread.calling_iff.2 (CallPhase.ne_idle_of_opening hopen)⟩
  omega

/-- The requester in turn goes on to another phase, which is no more and no less in the middle of an `open`. -/
theorem enterPhase (h : s.SessionInv) {p : CallPhase} (r : CallReturn) (hop : p.opening = s.call.opening)
    (hp : p ≠ .idle → s.session.isOpen = true ∧ (s.call = .idle → s.openingElsewhere = false)) :
    ({ s with call := p, ret := r } : State).SessionInv where
  closedBlank := h.closedBlank
  openTransport := h.openTransport
  onePassword := h.onePassword
  authIdentity := h.authIdentity
  openAuth ho ha := h.openAuth ho (by rw [any_opening] at ha ⊢; rwa [← hop])
  callsOpen ha := by
    by_cases hi : p = .idle
    · refine h.callsOpen ?_
      simp only [any_calling, hi, ne_eq, not_true_eq_false, decide_false, Bool.false_or] at ha
      rw [any_calling, ha, Bool.or_true]
    · exact (hp hi).1
  openAlone ha := by
    have ha' : (s.call.opening || s.openingElsewhere) = true := hop ▸ ha
    have alone := h.openAlone ha'
    rw [countP_calling] at alone ⊢
    have same : p = .idle ↔ s.call = .idle := by
      constructor
      · rintro rfl
        exact h.idle_of_openingElsewhere (by simpa [← hop] using ha')
      · intro hc
        by_contra hi
        simp [hc, (hp hi).2 hc] at ha'
    simpa only [same] using alone

theorem returns (h : s.SessionInv) (ho : s.call.opening = false) (v : CallValue) (e : ErrorCode) :
    (s.returnCall v e).state.SessionInv :=
  h.enterPhase (p := .idle) _ ho.symm (absurd rfl)

theorem presents (h : s.SessionInv) {p : CallPhase} (hop : p.opening = s.call.opening)
    (hp : s.session.isOpen = true ∧ (s.call = .idle → s.openingElsewhere = false)) (r : Request) :
    (s.present r p).state.SessionInv :=
  h.enterPhase s.ret hop fun _ => hp

/-- A session that is closed while no other requester runs a public operation. -/
theorem closes (hc : ∀ t ∈ s.parked, t.call = .idle) (v : CallValue) (e : ErrorCode) :
    (s.closeSession.returnCall v e).state.SessionInv := by
  refine of_closed rfl ?_
  simpa [SessionAct.state, State.returnCall, State.threads, State.thread] using hc

/-- A raw host changes the transport or the password register of a closed session. -/
theorem configure (h : s.SessionInv) (hs : s.session.isOpen = false) (pw : Bytes) (o : Bool) :
    ({ s with curPw := pw, transportOpen := o } : State).SessionInv :=
  of_closed (h.closedBlank hs) (h.idle_of_closed hs)

/-- An open session adopts a new password. -/
theorem adopt (h : s.SessionInv) (hs : s.session.isOpen = true) (pw : Bytes) :
    ({ s with curPw := pw, session := { s.session with currentPassword := pw } } : State).SessionInv :=
  { h with
    closedBlank := fun hc => by simp [hs] at hc
    onePassword := fun _ => rfl }

/-- A closed session begins to open. -/
theorem opens (h : s.SessionInv) (hs : s.session.isOpen = false) (pw : Bytes) :
    ({ s with transportOpen := true, curPw := pw, call := .openSync
              session := { s.session with isOpen := true, currentPassword := pw } } : State).SessionInv := by
  have others : s.parked.countP Thread.calling = 0 := by
    have := h.idle_of_closed hs
    simp only [State.threads, List.forall_mem_cons] at this
    simpa [List.countP_eq_zero, Thread.calling] using this.2
  exact
    { closedBlank := nofun
      openTransport := fun _ => rfl
      onePassword := fun _ => rfl
      authIdentity := h.authIdentity
      openAuth := fun _ ha => nomatch (ha : true = false)
      callsOpen := fun _ => rfl
      openAlone := fun _ => by simp [countP_calling, others] }

/-- An `open` ends: the identity is filled and the session authenticated. -/
theorem authenticates (h : s.SessionInv) (ho : s.call.opening = true) (id : Identity) (r : CallReturn) :
    ({ s with call := .idle, ret := r
              session := { s.session with isAuthenticated := true, identity := some id } } : State).SessionInv := by
  have isOpen : s.session.isOpen = true := h.callsOpen (by
    rw [any_calling, decide_eq_true (CallPhase.ne_idle_of_opening ho), Bool.true_or])
  have quiet : s.openingElsewhere = false := by
    by_contra hc
    simp [h.idle_of_openingElsewhere (by simpa using hc)] at ho
  exact
    { closedBlank := fun hc => by simp [isOpen] at hc
      openTransport := h.openTransport
      onePassword := h.onePassword
      authIdentity := rfl
      openAuth := fun _ _ => rfl
      callsOpen := fun _ => isOpen
      openAlone := fun ha => by
        have elsewhere : s.openingElsewhere = true := ha
        simp [quiet] at elsewhere }

/-! ## The Session's acts -/

/-- A public operation that is refused on a closed session and otherwise presents a request. -/
theorem asks (h : s.SessionInv) (hc : s.call = .idle) (he : s.openingElsewhere = false) {p : CallPhase}
    (hp : p.opening = false) (r : Request) (v : CallValue) (e : ErrorCode) :
    (if s.session.isOpen then s.present r p else s.returnCall v e).state.SessionInv := by
  split_ifs with ho
  · exact h.presents (by rw [hp, hc]; rfl) ⟨ho, fun _ => he⟩ r
  · exact h.returns (by rw [hc]; rfl) v e

/-- The same of one that takes a relay number. -/
theorem asksRelay (h : s.SessionInv) (hc : s.call = .idle) (he : s.openingElsewhere = false) {p : CallPhase}
    (hp : p.opening = false) (b : Bool) (r : Request) (v v' : CallValue) (e e' : ErrorCode) :
    (if s.session.isOpen then if b then s.present r p else s.returnCall v' e'
      else s.returnCall v e).state.SessionInv := by
  cases b
  · simp only [Bool.false_eq_true, if_false]
    split <;> exact h.returns (by rw [hc]; rfl) _ _
  · exact h.asks hc he hp r v e

theorem identityField (h : s.SessionInv) (hc : s.call = .idle) (f : Identity → Nat) :
    (s.identityField f).state.SessionInv := by
  unfold State.identityField
  split <;> exact h.returns (by rw [hc]; rfl) _ _

theorem callOpen (h : s.SessionInv) (hc : s.call = .idle) (pw : Bytes) : (s.callOpen pw).state.SessionInv := by
  unfold State.callOpen
  by_cases ho : s.session.isOpen = true
  · rw [if_pos ho]
    exact h.returns (by rw [hc]; rfl) _ _
  rw [if_neg ho]
  have hs : s.session.isOpen = false := by simpa using ho
  cases encodePassword pw
  case none => exact h.returns (by rw [hc]; rfl) _ _
  case some p =>
    simp only
    split_ifs
    · exact closes (fun t ht => h.idle_of_closed hs t (List.mem_cons_of_mem _ ht)) _ _
    · exact h.opens hs pw

theorem callChangePassword (h : s.SessionInv) (hc : s.call = .idle) (he : s.openingElsewhere = false) (new : Bytes) :
    (s.callChangePassword new).state.SessionInv := by
  unfold State.callChangePassword
  split_ifs with ho
  · split
    · exact h.returns (by rw [hc]; rfl) _ _
    · exact h.presents (by rw [hc]; rfl) ⟨(Bool.and_eq_true_iff.1 ho).1, fun _ => he⟩ _
  · exact h.returns (by rw [hc]; rfl) _ _

theorem callClose (h : s.SessionInv) (hc : s.call = .idle) (hq : s.quiet = true) :
    (s.callStart .closeSession).state.SessionInv := by
  have others : ∀ t ∈ s.parked, t.call = .idle := fun t ht => by
    have := List.all_eq_true.1 hq t (List.mem_cons_of_mem _ ht)
    simpa using (Bool.and_eq_true_iff.1 this).2
  unfold State.callStart
  simp only
  split_ifs
  · exact closes others _ _
  · exact h.returns (by rw [hc]; rfl) _ _

theorem callStart (h : s.SessionInv) (hc : s.call = .idle) (c : Call)
    (he : s.openingElsewhere = false ∨ ∃ p pw, c = .openSession p pw ∧ s.session.isOpen = true)
    (hq : c = .closeSession → s.quiet = true) : (s.callStart c).state.SessionInv := by
  have elsewhere (hn : ∀ p pw, c ≠ .openSession p pw) : s.openingElsewhere = false :=
    he.resolve_right fun ⟨p, pw, e, _⟩ => hn p pw e
  cases c
  case openSession p pw => exact h.callOpen hc pw
  case closeSession => exact h.callClose hc (hq rfl)
  case changePassword new => exact h.callChangePassword hc (elsewhere nofun) new
  case getBoardModel | getBoardVersion | getFirmwareVersion | getChannelCount => exact h.identityField hc _
  case getRelayState n => exact h.asksRelay hc (elsewhere nofun) rfl _ _ _ _ _ _
  case setRelay n b => exact h.asksRelay hc (elsewhere nofun) rfl _ _ _ _ _ _
  all_goals exact h.asks hc (elsewhere nofun) rfl _ _ _

theorem callResume (h : s.SessionInv) (hc : s.call ≠ .idle) : s.callResume.state.SessionInv := by
  have isOpen : s.session.isOpen = true := h.callsOpen (by rw [any_calling, decide_eq_true hc, Bool.true_or])
  have goesOn {p : CallPhase} (hop : p.opening = s.call.opening) (r : Request) : (s.present r p).state.SessionInv :=
    h.presents hop ⟨isOpen, fun hi => absurd hi hc⟩ r
  have fails (ho : s.call.opening = true) (e : ErrorCode) : (s.failOpen e).state.SessionInv :=
    closes (h.others_idle_of_opening ho) _ e
  unfold State.callResume
  cases hp : s.call
  case idle => exact absurd hp hc
  case openSync =>
    simp only
    split_ifs
    · exact fails (by rw [hp]; rfl) _
    · exact goesOn (by rw [hp]; rfl) _
  case openBoard => exact goesOn (by rw [hp]; rfl) _
  case openFirmware id =>
    simp only
    split_ifs
    · exact h.authenticates (by rw [hp]; rfl) _ _
    · exact fails (by rw [hp]; rfl) _
    · exact fails (by rw [hp]; rfl) _
  case changeOld new =>
    simp only
    split_ifs
    · exact goesOn (by rw [hp]; rfl) _
    · exact h.returns (by rw [hp]; rfl) _ _
  case changeNew new =>
    simp only
    split_ifs
    · exact (h.adopt isOpen new).returns (by rw [hp]; rfl) _ _
    · exact h.returns (by rw [hp]; rfl) _ _
  case relayConfirm | allConfirm =>
    simp only
    split_ifs <;> exact h.returns (by rw [hp]; rfl) _ _
  case modeRead m sends =>
    simp only
    split_ifs
    · exact h.returns (by rw [hp]; rfl) _ _
    · exact h.returns (by rw [hp]; rfl) _ _
    · exact goesOn (by rw [hp]; rfl) _
    · exact h.returns (by rw [hp]; rfl) _ _
  case query q => exact h.returns (by rw [hp]; rfl) _ _
  case changeSet | relaySet | allSet | modeSent => exact goesOn (by rw [hp]; rfl) _

/-- The block's step after an act of the Session. -/
theorem act {a : SessionAct} (hf : s.fault = none) (ho : a.Orderly s) (h : a.state.SessionInv)
    (ha : a.plan.answer = .next t) : t.SessionInv := by
  obtain ⟨r, u, rfl, hop⟩ | rfl := SessionAct.plan_cases ha
  · have hfu : (u.accept r).fault = none := by rw [ho.sessionOnly]; exact hf
    have accepted : (u.accept r).SessionInv := h.of_perm (.refl _) rfl rfl rfl
    exact accepted.of_operationOnly (operation_frame hfu hop)
  · exact h

theorem idleStep (hf : s.fault = none) (hc : s.call = .idle) (h : s.SessionInv) (ha : s.idleStep.answer = .next t) :
    t.SessionInv := by
  have closed (hm : s.hostMayConfigure = true) : s.session.isOpen = false := by
    simpa using (Bool.and_eq_true_iff.1 hm).2
  obtain rfl | ⟨r, _, _, ha⟩ | ⟨pw, _, hm, rfl⟩ | ⟨o, _, hm, rfl⟩ | ⟨c, _, ha, he, _, hq⟩ := idleStep_cases ha
  · exact h
  · exact act (a := .present r s) hf (.inl ⟨r, s, rfl, rfl⟩) h ha
  · exact h.configure (closed hm) pw s.transportOpen
  · exact h.configure (closed hm) s.curPw o
  · exact act hf (callStart_orderly c s) (h.callStart hc c he hq) ha

theorem switchTo (h : s.SessionInv) (k : Nat) : (s.switchTo k).SessionInv := by
  have perm := (switchTo_perm k s).map Thread.call
  refine h.of_perm perm ?_ ?_ ?_ <;> unfold State.switchTo <;> split <;> rfl

end State.SessionInv

/-- Settles O47: a reset leaves a closed session; a turn and the block's operations touch nothing the Session's promises
speak of, and each of its acts keeps them. -/
theorem stepKeepsSessionInv : Obligations.StepKeepsSessionInv := by
  intro s t h ht
  have sampled : s.sample.SessionInv := h.of_perm (.refl _) rfl rfl rfl
  obtain ⟨_, rfl⟩ | ⟨_, k, _, rfl⟩ | ⟨hf, _, _, ha⟩ := step_cases ht
  · exact State.SessionInv.of_closed rfl fun t ht => by rw [threads_powerOn _ t ht]; rfl
  · exact sampled.switchTo k
  have hf : s.sample.fault = none := hf
  have noted : s.sample.noteCancel.SessionInv := sampled.of_perm (.refl _) rfl rfl rfl
  obtain ⟨_, rfl⟩ | ⟨_, ha⟩ | ⟨_, hc, ha⟩ | ⟨_, hc, ha⟩ := threadStep_cases ha
  · exact noted.of_operationOnly (cancelOperation_frame _)
  · exact noted.of_operationOnly (operation_frame (s := s.sample.noteCancel) hf ha)
  · exact sampled.idleStep hf hc ha
  · exact State.SessionInv.act hf (callResume_orderly _) (sampled.callResume hc) ha

end Sys2Proof.Machine

namespace Sys2Proof

/-! ## What the decoder reads is well-formed -/

theorem commandOf_wf {cfg : Config} {k : Byte} {i : Instr} (h : cfg.commandOf k = some i) : i.wf = true := by
  have blank : ∀ j ∈ Instr.all, j.wf = true := by decide
  exact blank i (List.mem_of_find?_eq_some h)

theorem decodePayload_wf {mk : Byte → Byte → Byte → Instr} {bs rest : Bytes} {i : Instr}
    (h : decodePayload mk bs = .ok (i, rest)) : i.wf = true := by
  unfold decodePayload at h
  split at h
  · split_ifs at h with hw
    cases h
    exact hw
  · cases h

theorem decode_wf {cfg : Config} {bs rest : Bytes} {i : Instr} (h : decode cfg bs = .ok (i, rest)) : i.wf = true := by
  unfold decode at h
  split at h
  · cases h
  · split at h
    · cases h
    · exact decodePayload_wf h
    · exact decodePayload_wf h
    · rename_i hk
      cases h
      exact commandOf_wf hk

theorem decodeWordUnder_wf {cfg : Config} {nbits w : Nat} {i : Instr} (h : decodeWordUnder cfg nbits w = some i) :
    i.wf = true := by
  unfold decodeWordUnder at h
  split at h
  · rename_i hd
    cases h
    exact decode_wf hd
  · cases h

end Sys2Proof

namespace Sys2Proof.Machine

/-! ## A command's meaning, chosen by a step -/

theorem operation_of_command {s : State} {i : Instr} (h : s.currentCommand = .ok (some i)) :
    s.operation = .run i s := by
  simp only [State.operation, h]

theorem withFetchWord_of_decodes {s : State} {nbits w : Nat} {i : Instr}
    (h : decodeWordUnder s.cfg nbits w = some i) : s.withFetchWord nbits w = s.placeCommand i := by
  simp only [State.withFetchWord, State.placeWord, h]

/-- Settles O5: the request placed for the word is accepted, and resolves to the command the word decodes to. -/
theorem stepRunsPlacedWord : Obligations.StepRunsPlacedWord := by
  intro s nbits w i hf hb hr hc ho hw
  have resolved : resolve (requestOf i) = .ok (some i) := resolve_requestOf (decodeWordUnder_wf hw)
  rw [withFetchWord_of_decodes hw, step_request (s := s.placeCommand i) hf hb hc ho rfl]
  have current : ((s.placeCommand i).sample.accept (requestOf i)).currentCommand = .ok (some i) :=
    (if_pos ⟨rfl, hr⟩).trans resolved
  rw [operation_of_command current, Plan.answer_run]

/-- A busy requester with no cancel port and no cancel pending goes on with its operation. -/
theorem threadStep_of_busy {s : State} (hb : s.seq.busy = true) (hp : s.seq.cancelPending = false)
    (hcan : s.cfg.hasCancel = false) : s.threadStep = s.operation := by
  simp [State.threadStep, State.busyStep, noteCancel_of_noPort hcan, hb, hp]

/-- Settles O6: past its resolution the current command is the one in the command register. -/
theorem stepContinuesCommand : Obligations.StepContinuesCommand := by
  intro s hf hb hp hcan hr ht hq hres
  have current : s.sample.currentCommand = .ok (some s.seq.cmd) := (if_neg hres).trans (if_neg hq)
  rw [step_of_thread hf hr ht, threadStep_of_busy (s := s.sample) hb hp hcan, operation_of_command current,
    Plan.answer_run]

/-! ## Reset -/

/-- Settles O42, field by field. -/
theorem resetValues : Obligations.ResetValues :=
  ⟨rfl, rfl, rfl, rfl, rfl, rfl, rfl, rfl, rfl, rfl, rfl, rfl, rfl, rfl, rfl⟩

theorem threads_reset : ∀ t ∈ State.reset.threads, t = Thread.reset := by
  simp [State.threads, State.thread, State.reset, Thread.reset]

/-- Settles O44: at reset one requester is at rest beside a free gate and a closed session. -/
theorem invAtReset : Obligations.InvAtReset := by
  have registers : ∀ t ∈ State.reset.threads, t.seq = Sequencer.reset := fun t ht => by rw [threads_reset t ht]; rfl
  have calls : ∀ t ∈ State.reset.threads, t.call = .idle := fun t ht => by rw [threads_reset t ht]; rfl
  exact ⟨inv_of_threads_reset registers rfl, State.SessionInv.of_closed rfl calls,
    withinCapacity_of_threads_reset registers⟩

end Sys2Proof.Machine

end

section
/-! PROOFS of the family 20_memory.md: what a failed write leaves, what joins `tx`, and what leaves `rx`. A step of the
machine either touches neither stream, or readies the block and takes one step of its operation. -/

namespace Sys2Proof.Machine

/-! ## A failed write -/

/-- With the gate free before it, a failed write leaves its first part and the fault, and changes nothing else. -/
theorem exchangeFailed_of_gateFree {s : State} (hg : s.gateHeld = false) (i : Instr) (k : Nat) :
    s.exchangeFailed i k = { s with tx := s.tx ++ (encode s.cfg i).take k, fault := some .transportFault } := by
  rw [State.exchangeFailed, ← hg]

theorem roundTrip_failed {s : State} {k : Nat} (hg : s.gateHeld = false) (hw : s.now.writeFault = some k) :
    s.roundTrip = s.exchangeFailed s.seq.verification k := by
  rw [State.roundTrip, if_neg (by simp [hg]), beginExchange_failed hw]

/-! ## Where an operation writes -/

theorem operateStep_of_firstTry {s : State} (hr : s.seq.rsmState = .idle) (ho : s.seq.opState = .firstTry)
    (hopen : s.transportOpen = true) (i : Instr) (m : CommandMeaning) :
    s.operateStep i m = ({ s with seq := { s.seq with cmd := i } } : State).attemptCommand i m := by
  simp only [State.operateStep, hr, ho, State.firstTry, hopen, if_true]

theorem operateStep_of_retry {s : State} (hr : s.seq.rsmState = .idle) (ho : s.seq.opState = .retry) (i : Instr)
    (m : CommandMeaning) : s.operateStep i m = s.attemptCommand i m := by
  simp only [State.operateStep, hr, ho]

theorem operateStep_of_attempt {s : State} (hr : s.seq.rsmState = .idle) (ho : s.seq.opState = .resync)
    (hs : s.seq.supState = .attempt) (i : Instr) (m : CommandMeaning) : s.operateStep i m = s.roundTrip := by
  simp only [State.operateStep, hr, ho, State.superviseCommand, hs]

/-- Settles O27: at each of the three places an operation writes, the write fails before anything else is done. -/
theorem failedWriteFaults : Obligations.FailedWriteFaults := by
  intro i s k hf hr hg hw
  rw [exec_of_noFault hf]
  refine ⟨fun ho hopen => ?_, fun ho => ?_, fun a b c ho hs hpw => ?_⟩
  · have latched : ({ s with seq := { s.seq with cmd := i } } : State).gateHeld = false := hg
    rw [operateStep_of_firstTry hr ho hopen, attemptCommand_failed latched hw, exchangeFailed_of_gateFree latched]
  · rw [operateStep_of_retry hr ho, attemptCommand_failed hg hw, exchangeFailed_of_gateFree hg]
  · rw [operateStep_of_attempt hr ho hs, roundTrip_failed hg hw, exchangeFailed_of_gateFree hg,
      verification_of hpw]
    rfl

/-! ## What an operation's step does to the streams -/

/-- Settles O30: the streams of an operation's step, with the round trip's password spelled out. -/
theorem execWritesOnlyCommands : Obligations.ExecWritesOnlyCommands := by
  intro i s t h
  obtain ⟨_, rfl⟩ := exec_next h
  obtain ⟨-, written, -⟩ := operateStep_streams i (specMeaning s.cfg i) s
  obtain kept | own | ⟨ho, verified⟩ := written
  · exact .inl kept
  · exact .inr ⟨_, .inl rfl, own⟩
  · exact .inr ⟨_, .inr ⟨ho, _, _, _, rfl, rfl⟩, verified⟩

/-- The step of the operation in progress, a refused request and the bare resynchronisation included, takes bytes only in
a read and sends one command at most. -/
theorem operation_streams {s t : State} (hf : s.fault = none) (h : s.operation.answer = .next t) :
    (s.seq.rsmState ≠ .accumulating → t.rx = s.rx) ∧ (t.tx = s.tx ∨ ∃ i, Sent (encode s.cfg i) s t) := by
  obtain ⟨e, _, rfl⟩ | ⟨_, rfl⟩ | ⟨i, _, rfl⟩ := operation_cases hf h
  · exact ⟨fun _ => rfl, .inl rfl⟩
  · obtain ⟨hrx, htx, -⟩ := syncStep_streams s
    exact ⟨hrx, htx.imp_right fun sent => ⟨_, sent⟩⟩
  · obtain ⟨hrx, htx, -⟩ := operateStep_streams i (specMeaning s.cfg i) s
    refine ⟨hrx, htx.imp_right ?_⟩
    rintro (own | ⟨-, verified⟩)
    · exact ⟨_, own⟩
    · exact ⟨_, verified⟩

/-! ## What a step of the machine does to the streams -/

/-- Neither stream has changed. -/
def StreamsKept (s t : State) : Prop := t.tx = s.tx ∧ t.rx = s.rx

/-- `u` is `s` ready for a step of its operation: what the Session owns may have changed, a request may have been
accepted and a cancel remembered, and nothing else. -/
def Readied (s u : State) : Prop :=
  u = { s with
    call := u.call, ret := u.ret, session := u.session, curPw := u.curPw, transportOpen := u.transportOpen
    seq := { s.seq with req := u.seq.req, opState := u.seq.opState, cancelPending := u.seq.cancelPending } }

/-- `t` is reached from `s` by a move that touches neither stream, or, with no fault, by one step of the
operation of `s` readied. -/
def MovesOrOperates (s t : State) : Prop :=
  StreamsKept s t ∨ (s.fault = none ∧ ∃ u, Readied s u ∧ u.operation.answer = .next t)

theorem SessionOnly.readied_accept {s u : State} (h : SessionOnly s u) (r : Request) : Readied s (u.accept r) := by
  rw [h]
  rfl

theorem SessionOnly.streamsKept {s t : State} (h : SessionOnly s t) : StreamsKept s t := by
  rw [h]
  exact ⟨rfl, rfl⟩

theorem switchTo_streams (k : Nat) (s : State) : StreamsKept s (s.switchTo k) := by
  unfold State.switchTo
  split <;> exact ⟨rfl, rfl⟩

theorem cancelOperation_streams (s : State) : StreamsKept s s.cancelOperation := by
  unfold State.cancelOperation State.abandonExchange
  split <;> exact ⟨rfl, rfl⟩

namespace MovesOrOperates

variable {s t : State}

theorem act {a : SessionAct} (hf : s.fault = none) (ho : a.Orderly s) (h : a.plan.answer = .next t) :
    MovesOrOperates s t := by
  obtain ⟨r, u, rfl, hop⟩ | rfl := SessionAct.plan_cases h
  · exact .inr ⟨hf, _, ho.sessionOnly.readied_accept r, hop⟩
  · obtain ⟨_, _, e, _⟩ | ⟨_, e, owned⟩ | ⟨_, e, owned⟩ := ho <;> cases e
    · exact .inl owned.streamsKept
    · exact .inl owned.streamsKept

theorem idleStep (hf : s.fault = none) (h : s.idleStep.answer = .next t) : MovesOrOperates s t := by
  obtain rfl | ⟨r, _, _, ha⟩ | ⟨_, _, _, rfl⟩ | ⟨_, _, _, rfl⟩ | ⟨c, _, ha, _⟩ := idleStep_cases h
  · exact .inl ⟨rfl, rfl⟩
  · exact .inr ⟨hf, s.accept r, rfl, ha⟩
  · exact .inl ⟨rfl, rfl⟩
  · exact .inl ⟨rfl, rfl⟩
  · exact act hf (callStart_orderly c s) ha

theorem threadStep (hf : s.fault = none) (h : s.threadStep.answer = .next t) : MovesOrOperates s t := by
  obtain ⟨_, rfl⟩ | ⟨_, ha⟩ | ⟨_, _, ha⟩ | ⟨_, _, ha⟩ := threadStep_cases h
  · exact .inl (cancelOperation_streams s.noteCancel)
  · exact .inr ⟨hf, s.noteCancel, rfl, ha⟩
  · exact idleStep hf ha
  · exact act hf (callResume_orderly s) ha

theorem step (h : step s = .next t) : MovesOrOperates s.sample t := by
  obtain ⟨_, rfl⟩ | ⟨_, k, _, rfl⟩ | ⟨hf, _, _, ha⟩ := step_cases h
  · exact .inl ⟨rfl, rfl⟩
  · exact .inl (switchTo_streams k s.sample)
  · exact threadStep hf ha

theorem streams (h : MovesOrOperates s t) :
    (s.seq.rsmState ≠ .accumulating → t.rx = s.rx) ∧ (t.tx = s.tx ∨ ∃ i, Sent (encode s.cfg i) s t) := by
  obtain ⟨htx, hrx⟩ | ⟨hf, u, ready, hop⟩ := h
  · exact ⟨fun _ => hrx, .inl htx⟩
  · have hu : u.fault = none := by rw [ready]; exact hf
    have operated := operation_streams hu hop
    rw [ready] at operated
    exact operated

end MovesOrOperates

/-- Settles O49: the one command of a step is sent whole, or its write fails. -/
theorem stepAppendsWholeCommands : Obligations.StepAppendsWholeCommands := by
  intro s t h
  obtain kept | ⟨i, whole | ⟨fault, k, part⟩⟩ := (MovesOrOperates.step h).streams.2
  · exact .inl kept
  · exact .inr (.inl ⟨i, whole⟩)
  · exact .inr (.inr ⟨fault, i, k, part⟩)

/-- Settles O50: of all that a step can do only a read takes bytes. -/
theorem onlyReadsTakeBytes : Obligations.OnlyReadsTakeBytes :=
  fun _ _ h hr => (MovesOrOperates.step h).streams.1 hr

end Sys2Proof.Machine

end

section
/-! PROOFS of the family 30_encoding.md: the decoder and the encoder are inverse to each other, the password encoder, the
relay table, refused requests and the mode's reply. Decoder facts are stated once per format (F0, one byte; F3, four), not
once per command. -/

namespace Sys2Proof

/-! ## The two formats -/

/-- The two commands of format F3 (R92), as functions of their payload bytes. -/
def FormatF3 (mk : Byte → Byte → Byte → Instr) : Prop := mk = .verifyPassword ∨ mk = .setPassword

/-- A command is of format F0, with nothing after its opcode, or of format F3. -/
theorem Instr.format_cases (i : Instr) :
    (i.payload = [] ∧ i.blank = i) ∨ ∃ mk a b c, FormatF3 mk ∧ i = mk a b c := by
  cases i
  case verifyPassword a b c => exact .inr ⟨.verifyPassword, a, b, c, .inl rfl, rfl⟩
  case setPassword a b c => exact .inr ⟨.setPassword, a, b, c, .inr rfl, rfl⟩
  all_goals exact .inl ⟨rfl, rfl⟩

namespace FormatF3

variable {mk : Byte → Byte → Byte → Instr}

theorem payload_eq (h : FormatF3 mk) (a b c : Byte) : (mk a b c).payload = [a, b, c] := by
  obtain rfl | rfl := h <;> rfl

theorem blank_eq (h : FormatF3 mk) (a b c : Byte) : (mk a b c).blank = mk 0 0 0 := by
  obtain rfl | rfl := h <;> rfl

/-- The opcode does not depend on the payload. -/
theorem opcodeOf_eq (h : FormatF3 mk) (cfg : Config) (a b c x y z : Byte) :
    cfg.opcodeOf (mk a b c) = cfg.opcodeOf (mk x y z) := by
  obtain rfl | rfl := h <;> rfl

theorem encode_eq (h : FormatF3 mk) (cfg : Config) (a b c : Byte) :
    encode cfg (mk a b c) = [cfg.opcodeOf (mk a b c), a, b, c] := by
  rw [encode, h.payload_eq]

end FormatF3

theorem encode_of_formatF0 {i : Instr} (h : i.payload = []) (cfg : Config) : encode cfg i = [cfg.opcodeOf i] := by
  rw [encode, h]

/-! ## The opcode lookup -/

/-- Under an injective opcode table the lookup of a command's opcode answers the command, without its payload. -/
theorem commandOf_opcodeOf_eq_blank {cfg : Config} (h : cfg.opcodesDistinct = true) (i : Instr) :
    cfg.commandOf (cfg.opcodeOf i) = some i.blank :=
  commandOf_opcodeOf h i (by cases i <;> rfl)

theorem opcodeOf_of_commandOf {cfg : Config} {k : Byte} {i : Instr} (h : cfg.commandOf k = some i) :
    cfg.opcodeOf i = k :=
  eq_of_beq (List.find?_some (p := fun j => cfg.opcodeOf j == k) h)

/-! ## The decoder on each format -/

theorem decode_cons_of_unknown {cfg : Config} {k : Byte} (h : cfg.commandOf k = none) (rest : Bytes) :
    decode cfg (k :: rest) = .error (.unknownOpcode k) := by
  simp only [decode, h]

theorem decode_cons_of_formatF0 {cfg : Config} {k : Byte} {i : Instr} (h : cfg.commandOf k = some i)
    (hp : i.payload = []) (rest : Bytes) : decode cfg (k :: rest) = .ok (i, rest) := by
  unfold decode
  cases i
  case verifyPassword => cases hp
  case setPassword => cases hp
  all_goals simp only [h]

theorem decode_cons_of_formatF3 {cfg : Config} {k a b c : Byte} {mk : Byte → Byte → Byte → Instr} (hmk : FormatF3 mk)
    (h : cfg.commandOf k = some (mk a b c)) (rest : Bytes) : decode cfg (k :: rest) = decodePayload mk rest := by
  obtain rfl | rfl := hmk <;> simp only [decode, h]

/-- A command of format F3 is decoded by its payload alone, whatever payload its opcode is written with. -/
theorem decode_opcode_of_formatF3 {cfg : Config} {mk : Byte → Byte → Byte → Instr} (h : cfg.opcodesDistinct = true)
    (hmk : FormatF3 mk) (a b c : Byte) (rest : Bytes) :
    decode cfg (cfg.opcodeOf (mk a b c) :: rest) = decodePayload mk rest :=
  decode_cons_of_formatF3 hmk ((commandOf_opcodeOf_eq_blank h _).trans (congrArg some (hmk.blank_eq a b c))) rest

theorem decodePayload_cons (mk : Byte → Byte → Byte → Instr) (a b c : Byte) (rest : Bytes) :
    decodePayload mk (a :: b :: c :: rest) =
      if (mk a b c).wf then .ok (mk a b c, rest) else .error .passwordTooLarge := rfl

/-- What a payload of format F3 decodes to: the three bytes in front, and the bytes after them. -/
theorem eq_of_decodePayload {mk : Byte → Byte → Byte → Instr} {bs rest : Bytes} {i : Instr}
    (h : decodePayload mk bs = .ok (i, rest)) : ∃ a b c, i = mk a b c ∧ bs = a :: b :: c :: rest := by
  unfold decodePayload at h
  split at h
  case h_1 a b c tail =>
    split_ifs at h
    cases h
    exact ⟨a, b, c, rfl, rfl⟩
  case h_2 => cases h

/-! ## The decoder and the encoder are inverse to each other -/

theorem decode_encode_append {cfg : Config} {i : Instr} (h : cfg.opcodesDistinct = true) (hw : i.wf = true)
    (rest : Bytes) : decode cfg (encode cfg i ++ rest) = .ok (i, rest) := by
  obtain ⟨hp, hb⟩ | ⟨mk, a, b, c, hmk, rfl⟩ := i.format_cases
  · rw [encode_of_formatF0 hp]
    exact decode_cons_of_formatF0 ((commandOf_opcodeOf_eq_blank h i).trans (congrArg some hb)) hp rest
  · rw [hmk.encode_eq]
    exact (decode_opcode_of_formatF3 h hmk a b c _).trans ((decodePayload_cons mk a b c rest).trans (if_pos hw))

theorem eq_encode_append_of_decode {cfg : Config} {bs rest : Bytes} {i : Instr} (h : decode cfg bs = .ok (i, rest)) :
    bs = encode cfg i ++ rest := by
  cases bs with
  | nil => cases h
  | cons k tail =>
    cases hk : cfg.commandOf k with
    | none => rw [decode_cons_of_unknown hk] at h; cases h
    | some j =>
      have opcode : cfg.opcodeOf j = k := opcodeOf_of_commandOf hk
      obtain ⟨hp, -⟩ | ⟨mk, x, y, z, hmk, rfl⟩ := j.format_cases
      · rw [decode_cons_of_formatF0 hk hp] at h
        cases h
        rw [encode_of_formatF0 hp, opcode, List.singleton_append]
      · rw [decode_cons_of_formatF3 hmk hk] at h
        obtain ⟨a, b, c, rfl, rfl⟩ := eq_of_decodePayload h
        rw [hmk.encode_eq, hmk.opcodeOf_eq cfg a b c x y z, opcode]
        rfl

/-- Settles O1: the opcode looks its own command up, and the payload is read back where the format has one. -/
theorem decodeOfEncode : Obligations.DecodeOfEncode :=
  fun _ _ rest h hw => decode_encode_append h hw rest

/-- Settles O2: the opcode found is the first byte, and the payload read is the bytes after it. -/
theorem decodeOnlyEncodings : Obligations.DecodeOnlyEncodings :=
  fun _ _ _ _ h => ⟨decode_wf h, eq_encode_append_of_decode h⟩

/-! ## Table words -/

/-- A one-byte word: the byte, then zeros. -/
theorem wordBytes_byte (k : Byte) : wordBytes 8 k.toNat = k :: [0, 0, 0] := by
  have h := k.isLt
  have h0 : k.toNat % 2 ^ 8 = k.toNat := Nat.mod_eq_of_lt h
  have h1 : k.toNat / 256 = 0 := by omega
  have h2 : k.toNat / 65536 = 0 := by omega
  have h3 : k.toNat / 16777216 = 0 := by omega
  simp only [wordBytes, h0, h1, h2, h3, byteOf, BitVec.ofNat_toNat, BitVec.setWidth_eq]
  rfl

/-- A four-byte word: the opcode in bits 7:0, the value in bits 31:8, least significant byte first (R92). -/
theorem wordBytes_opcode_value (k : Byte) {v : Nat} (hv : v < 16777216) :
    wordBytes 32 (k.toNat + 256 * v) = k :: [byteOf v, byteOf (v / 256), byteOf (v / 65536)] := by
  have h := k.isLt
  have h0 : (k.toNat + 256 * v) % 2 ^ 32 = k.toNat + 256 * v := by omega
  have h1 : (k.toNat + 256 * v) / 256 = v := by omega
  have h2 : (k.toNat + 256 * v) / 65536 = v / 256 := by omega
  have h3 : (k.toNat + 256 * v) / 16777216 = v / 65536 := by omega
  have hk : byteOf (k.toNat + 256 * v) = k := by
    apply BitVec.eq_of_toNat_eq
    rw [BitVec.toNat_ofNat]
    omega
  simp only [wordBytes, h0, h1, h2, h3, hk]

theorem decodeWordUnder_of_wordBytes {cfg : Config} {nbits w : Nat} {i : Instr} {rest : Bytes}
    (h : cfg.opcodesDistinct = true) (hw : i.wf = true) (hb : wordBytes nbits w = encode cfg i ++ rest) :
    decodeWordUnder cfg nbits w = some i := by
  simp only [decodeWordUnder, hb, decode_encode_append h hw]

/-- The opcode of a command of format F0, as a word, decodes to it. -/
theorem decodeWordUnder_opcode {cfg : Config} {i : Instr} (h : cfg.opcodesDistinct = true) (hp : i.payload = [])
    (hw : i.wf = true) : decodeWordUnder cfg 8 (cfg.opcodeOf i).toNat = some i :=
  decodeWordUnder_of_wordBytes h hw ((wordBytes_byte _).trans (by rw [encode_of_formatF0 hp]; rfl))

/-- The opcode of a command of format F3 with a value in range, as a word, decodes to the command with the value's three
bytes. -/
theorem decodeWordUnder_opcode_value {cfg : Config} {mk : Byte → Byte → Byte → Instr} {v : Nat}
    (h : cfg.opcodesDistinct = true) (hmk : FormatF3 mk) (hv : v < 16777216)
    (hw : (mk (byteOf v) (byteOf (v / 256)) (byteOf (v / 65536))).wf = true) :
    decodeWordUnder cfg 32 ((cfg.opcodeOf (mk 0 0 0)).toNat + 256 * v) =
      some (mk (byteOf v) (byteOf (v / 256)) (byteOf (v / 65536))) :=
  decodeWordUnder_of_wordBytes (rest := []) h hw <|
    (wordBytes_opcode_value _ hv).trans (by rw [hmk.encode_eq, List.append_nil, hmk.opcodeOf_eq cfg 0 0 0])

/-- The same word with a value out of range decodes to nothing. -/
theorem decodeWordUnder_opcode_tooLarge {cfg : Config} {mk : Byte → Byte → Byte → Instr} {v : Nat}
    (h : cfg.opcodesDistinct = true) (hmk : FormatF3 mk) (hv : v < 16777216)
    (hw : (mk (byteOf v) (byteOf (v / 256)) (byteOf (v / 65536))).wf = false) :
    decodeWordUnder cfg 32 ((cfg.opcodeOf (mk 0 0 0)).toNat + 256 * v) = none := by
  simp only [decodeWordUnder, wordBytes_opcode_value _ hv, decode_opcode_of_formatF3 h hmk, decodePayload_cons, hw,
    Bool.false_eq_true, if_false]

/-- Settles O4: each word is the opcode of a row of R96, followed by its value where the format has a payload. -/
theorem wordsDecodeRight : Obligations.WordsDecodeRight := by
  intro cfg h
  have one {i : Instr} (hp : i.payload = []) (hw : i.wf = true) : decodeWordUnder cfg 8 (cfg.opcodeOf i).toNat = some i :=
    decodeWordUnder_opcode h hp hw
  refine ⟨one (i := .getBoardId) rfl rfl, ?_, ?_, ?_, one (i := .setModeLatching) rfl rfl,
    one (i := .relay3High) rfl rfl, one (i := .relay8Low) rfl rfl, one (i := .allHigh) rfl rfl,
    one (i := .getTempAscii) rfl rfl, ?_, rfl⟩
  · exact decodeWordUnder_opcode_value (mk := .verifyPassword) (v := 0x01E240) h (.inl rfl) (by decide) (by decide)
  · exact decodeWordUnder_opcode_value (mk := .setPassword) (v := 111) h (.inr rfl) (by decide) (by decide)
  · exact decodeWordUnder_opcode_tooLarge (mk := .setPassword) (v := 1000000) h (.inr rfl) (by decide) (by decide)
  · exact decode_opcode_of_formatF3 h (.inl rfl) 0 0 0 [0x40, 0xE2]

end Sys2Proof

namespace Sys2Proof.Machine

/-! ## Passwords -/

theorem isDigit_iff (d : Byte) : isDigit d = true ↔ 0x30 ≤ d.toNat ∧ d.toNat ≤ 0x39 := by
  rw [isDigit, Bool.and_eq_true, decide_eq_true_eq, decide_eq_true_eq]

theorem validPassword_iff (pw : Bytes) :
    validPassword pw = true ↔ pw.length = 6 ∧ ∀ d ∈ pw, 0x30 ≤ d.toNat ∧ d.toNat ≤ 0x39 := by
  rw [validPassword, Bool.and_eq_true, decide_eq_true_eq, List.all_eq_true]
  simp only [Config.passwordLen, isDigit_iff]

theorem byteOf_mod (n : Nat) : byteOf (n % 256) = byteOf n := by
  apply BitVec.eq_of_toNat_eq
  rw [BitVec.toNat_ofNat, BitVec.toNat_ofNat]
  omega

/-- Six digits spell at most 999999. -/
theorem decimalValue_le_of_valid {pw : Bytes} (h : validPassword pw = true) : decimalValue pw ≤ 999999 := by
  obtain ⟨hlen, digits⟩ := (validPassword_iff pw).1 h
  match pw, hlen with
  | [d0, d1, d2, d3, d4, d5], _ =>
    simp only [List.forall_mem_cons] at digits
    rw [decimalValue_six]
    omega

/-- Settles O7: six digits are a valid text, whose bytes are those of its value; any other text is not valid. -/
theorem encodePasswordRule : Obligations.EncodePasswordRule := by
  constructor
  · intro d0 d1 d2 d3 d4 d5 digits
    have valid : validPassword [d0, d1, d2, d3, d4, d5] = true := (validPassword_iff _).2 ⟨rfl, digits⟩
    have inRange := decimalValue_le_of_valid valid
    refine ⟨_, decimalValue_six d0 d1 d2 d3 d4 d5, inRange, ?_⟩
    rw [encodePassword_of_valid valid inRange, byteOf_mod, byteOf_mod]
  · intro pw bad
    refine encodePassword_of_invalid (Bool.eq_false_iff.2 fun valid => ?_)
    obtain ⟨hlen, digits⟩ := (validPassword_iff pw).1 valid
    obtain hne | ⟨d, hd, hout⟩ := bad
    · exact hne hlen
    · have := digits d hd
      omega

/-! ## The relay table and refused requests -/

theorem relayCommand_of_outside {n : Int} (h : n < 1 ∨ 8 < n) (state : Bool) : relayCommand n state = none := by
  unfold relayCommand
  rw [if_neg, if_neg, if_neg, if_neg, if_neg, if_neg, if_neg, if_neg] <;> omega

/-- Settles O9: the eight entries, and none outside them. -/
theorem relayTable : Obligations.RelayTable := by
  refine ⟨by decide, fun n state h => ?_⟩
  rw [resolve, relayCommand_of_outside h]

/-- `Resolve` refuses only a password or a relay number, each with its error. -/
theorem error_ne_none_of_resolve {r : Request} {e : ErrorCode} (h : resolve r = .error e) : e ≠ .none := by
  unfold resolve at h
  split at h
  case h_3 pw | h_4 pw =>
    split at h <;> cases h
    decide
  case h_11 n state =>
    split at h <;> cases h
    decide
  all_goals cases h

theorem operation_of_refused {s : State} {e : ErrorCode} (h : s.currentCommand = .error e) :
    s.operation = .next (s.rejectRequest e) := by
  simp only [State.operation, h]

/-- A refusal reports the default, and that the transport is closed where it is (R321). -/
theorem rejectRequest_result {s : State} {e : ErrorCode} (he : e ≠ .none) :
    (s.rejectRequest e).seq.result =
      { value := failureOf s.seq.req, ok := false, err := if s.transportOpen then e else .notOpen } := by
  unfold State.rejectRequest
  split
  · simp [he]
  · simp

/-- Settles O10: the first step of an idle block resolves the request, and its refusal ends the operation there. -/
theorem refusedRequestWritesNothing : Obligations.RefusedRequestWritesNothing := by
  intro s r e hf hb hr hc ho hm hres
  have refused : (s.sample.accept r).currentCommand = .error e := (if_pos ⟨rfl, hr⟩).trans hres
  have ended : step s = .next ((s.sample.accept r).rejectRequest e) := by
    rw [step_request hf hb hc ho hm, operation_of_refused refused, Plan.answer_next]
  exact ⟨_, ended, rejectRequest_result (error_ne_none_of_resolve hres), rfl, rfl, rfl, rfl, hf, rfl, rfl, rfl, rfl,
    rfl⟩

/-! ## The mode's reply -/

theorem decodeMode_eq_latching_iff (cfg : Config) (b : Byte) :
    decodeMode cfg b = .latching ↔ b = cfg.opcodeOf .setModeLatching := by
  by_cases hl : b = cfg.opcodeOf .setModeLatching
  · simp [decodeMode, hl]
  · simp only [decodeMode, hl, if_false, iff_false]
    split <;> decide

theorem decodeMode_eq_momentary_iff {cfg : Config} (h : cfg.opcodesDistinct = true) (b : Byte) :
    decodeMode cfg b = .momentary ↔ b = cfg.opcodeOf .setModeMomentary := by
  have distinct : cfg.opcodeOf .setModeLatching ≠ cfg.opcodeOf .setModeMomentary :=
    fun e => absurd (opcode_injective h e) (by decide)
  by_cases hl : b = cfg.opcodeOf .setModeLatching
  · simp [decodeMode, hl, distinct]
  · simp [decodeMode, hl]

/-- Settles O13: the two set-mode opcodes differ, so the reply byte tells the modes apart. -/
theorem modeReply : Obligations.ModeReply := by
  intro cfg h
  refine ⟨rfl, rfl, rfl, rfl, rfl, fun b rest => ⟨?_, ?_⟩⟩
  · exact (iff_of_eq (ResultValue.mode.injEq _ _)).trans (decodeMode_eq_latching_iff cfg b)
  · exact (iff_of_eq (ResultValue.mode.injEq _ _)).trans (decodeMode_eq_momentary_iff h b)

end Sys2Proof.Machine

end

section
/-! PROOFS of the family 40_codec_commands.md: the encoder's two formats, a command without a reply in its one step, and
the frame of every command's meaning. The frame of the shared state is that of the operations (`OperationOnly`); the frame
of the requester's registers is shown once per place of an operation: a read, its end, an attempt, the supervisor. -/

namespace Sys2Proof

/-! ## The encoder -/

/-- Settles O3: the payload of format F0 is empty, that of format F3 its three bytes. -/
theorem encodeIsOpcodeThenPayload : Obligations.EncodeIsOpcodeThenPayload := by
  refine ⟨fun _ _ => rfl, fun cfg a b c => ⟨FormatF3.encode_eq (.inl rfl) cfg a b c,
    FormatF3.encode_eq (.inr rfl) cfg a b c⟩, fun cfg i hv hs => ?_⟩
  obtain ⟨hp, -⟩ | ⟨mk, a, b, c, rfl | rfl, rfl⟩ := i.format_cases
  · rw [encode_of_formatF0 hp, List.length_singleton]
  · exact absurd rfl (hv a b c)
  · exact absurd rfl (hs a b c)

end Sys2Proof

namespace Sys2Proof.Machine

/-! ## A command without a reply -/

/-- The operation of command `i` is in its first try, and the command register holds `i` (R231). -/
def State.started (i : Instr) (s : State) : State := { s with seq := { s.seq with opState := .firstTry, cmd := i } }

theorem firstTry_of_open {s : State} (h : s.transportOpen = true) (i : Instr) (m : CommandMeaning) :
    s.firstTry i m = (s.started i).attemptCommand i m := by
  simp only [State.firstTry, h, if_true, State.started]

theorem operateStep_of_start {s : State} (hr : s.seq.rsmState = .idle)
    (ho : s.seq.opState = .idle ∨ s.seq.opState = .firstTry) (i : Instr) (m : CommandMeaning) :
    s.operateStep i m = s.firstTry i m := by
  obtain ho | ho := ho <;> simp only [State.operateStep, hr, ho]

/-- An attempt at a command without a reply, when the gate is free and the write succeeds, is the whole exchange and the
end of the operation. -/
theorem attemptCommand_done {i : Instr} {m : CommandMeaning} {s : State} (hf : s.fault = none)
    (hg : s.gateHeld = false) (hw : s.now.writeFault = none) (hm : m.reply = .none) :
    s.attemptCommand i m = (s.exchangeDone i).finish .unit .none := by
  have done := beginExchange_none (i := i) (t := m.timeoutMs) hf hw
  have unfaulted : (s.exchangeDone i).fault = none := hf
  simp only [State.attemptCommand, hg, Bool.false_eq_true, if_false, hm, done, unfaulted]

/-- With the gate free before it, an exchange without a reply appends the command and sets the Response. -/
theorem exchangeDone_of_gateFree {s : State} (hg : s.gateHeld = false) (i : Instr) :
    s.exchangeDone i = { s with tx := s.tx ++ encode s.cfg i, seq := s.seq.respond [] true } := by
  rw [State.exchangeDone, ← hg]

theorem hasReply_eq_true_iff {cfg : Config} {i : Instr} : hasReply cfg i = true ↔ specReply cfg i ≠ .none :=
  decide_eq_true_iff

theorem hasReply_eq_false_iff {cfg : Config} {i : Instr} : hasReply cfg i = false ↔ specReply cfg i = .none := by
  simp [hasReply]

/-- Settles O21: the operation starts, and its one attempt ends it. -/
theorem commandWithoutReplyCompletes : Obligations.CommandWithoutReplyCompletes := by
  intro i s hreply hf hr ho hopen hg hw
  have free : (s.started i).gateHeld = false := hg
  rw [exec_of_noFault hf, operateStep_of_start hr ho, firstTry_of_open hopen,
    attemptCommand_done (s := s.started i) hf free hw (hasReply_eq_false_iff.mp hreply), exchangeDone_of_gateFree free]
  rfl

/-! ## The frame of the registers -/

/-- After a read the operation ends with a value or with `Timeout`, starts the supervisor, or was in it. -/
theorem afterRead_cases (m : CommandMeaning) (s : State) :
    (∃ v, s.afterRead m = s.finish v .none) ∨ s.afterRead m = s.raise m.failure .timeout ∨
    s.afterRead m = { s with seq := { s.seq with opState := .resync } } ∨
    (s.seq.opState = .resync ∧ s.afterRead m = s.roundTripEnd) := by
  unfold State.afterRead
  cases s.seq.opState
  case resync => exact .inr (.inr (.inr ⟨rfl, rfl⟩))
  case retry =>
    simp only
    split
    · exact .inl ⟨_, rfl⟩
    · exact .inr (.inl rfl)
  all_goals
    simp only
    split
    · exact .inl ⟨_, rfl⟩
    · exact .inr (.inr (.inl rfl))

/-- What a step of command `i`'s operation, its reply kind being `reply`, keeps of the requester's registers `q`; `r` are
the registers after the step (R154, R239, R236, R43, R30, R209). -/
structure Sequencer.KeptBy (i : Instr) (reply : ReplyKind) (q r : Sequencer) : Prop where
  command : r.cmd = q.cmd ∨ r.cmd = i
  auth : q.opState ≠ .resync →
    r.authValid = q.authValid ∧ r.authResult = q.authResult ∧ r.attemptCnt = q.attemptCnt
  payload : q.opState = .resync ∧ q.supState = .idle ∧ q.rsmState = .idle ∨ r.syncPw = q.syncPw
  result : r.opState ≠ .idle → r.result = q.result
  read : q.rsmState ≠ .idle →
    r.rsmExpected = q.rsmExpected ∧ r.rsmTimeoutMs = q.rsmTimeoutMs ∧ r.cmd = q.cmd
  response : q.rsmState = .accumulating ∨ (q.rsmState = .idle ∧ reply ≠ .none) → r.resp = q.resp

namespace Sequencer.KeptBy

theorem refl (i : Instr) (reply : ReplyKind) (q : Sequencer) : KeptBy i reply q q where
  command := .inl rfl
  auth _ := ⟨rfl, rfl, rfl⟩
  payload := .inr rfl
  result _ := rfl
  read _ := ⟨rfl, rfl, rfl⟩
  response _ := rfl

variable {i : Instr} {reply : ReplyKind} {m : CommandMeaning} {s : State}

/-- A read's step changes the buffer, the clocks and the state of the read. -/
theorem rsmStep (ha : s.seq.rsmState = .accumulating) : KeptBy i reply s.seq s.rsmStep.seq := by
  obtain ⟨_, _, e⟩ | ⟨_, _, e⟩ | ⟨_, e⟩ := rsmStep_cases s <;> rw [e]
  · simp only [Sequencer.rsmFinish, ha]
    exact { refl i reply s.seq with }
  · rw [rsmExit_eq]
    exact { refl i reply s.seq with }
  · rw [rsmExit_eq]
    exact { refl i reply s.seq with }

/-- The end of a read sets the Response, and the result where the operation ends with it; the auth latch is the
supervisor's. -/
theorem afterRead (hr : s.seq.rsmState = .satisfied ∨ s.seq.rsmState = .timedOut) :
    KeptBy i reply s.seq (s.endExchange.afterRead m).seq := by
  have unread : ¬ (s.seq.rsmState = .accumulating ∨ (s.seq.rsmState = .idle ∧ reply ≠ .none)) := by
    obtain hr | hr := hr <;> simp [hr]
  obtain ⟨v, e⟩ | e | e | ⟨ho, e⟩ := afterRead_cases m s.endExchange
  · rw [e, finish_seq, endExchange_seq, rsmFinish_eq]
    exact { refl i reply s.seq with result := fun h => absurd rfl h, response := fun h => absurd h unread }
  · rw [e, raise_seq, endExchange_seq, rsmFinish_eq]
    exact { refl i reply s.seq with result := fun h => absurd rfl h, response := fun h => absurd h unread }
  · rw [e, endExchange_seq, rsmFinish_eq]
    exact { refl i reply s.seq with result := fun _ => rfl, response := fun h => absurd h unread }
  · have supervised : ¬ s.seq.opState ≠ .resync := by simpa using ho
    obtain ⟨_, e'⟩ | ⟨_, _, e'⟩ | ⟨_, _, e'⟩ := roundTripEnd_cases s.endExchange <;>
      rw [e, e', endExchange_seq, rsmFinish_eq]
    · exact { refl i reply s.seq with auth := fun h => absurd h supervised, response := fun h => absurd h unread }
    · exact { refl i reply s.seq with auth := fun h => absurd h supervised, response := fun h => absurd h unread }
    · exact { refl i reply s.seq with response := fun h => absurd h unread }

/-- An attempt sets the Response and the result where the command has no reply, and the registers of its read where it has
one. -/
theorem attemptCommand (hf : s.fault = none) (hr : s.seq.rsmState = .idle) :
    KeptBy i m.reply s.seq (s.attemptCommand i m).seq := by
  obtain ⟨_, e⟩ | ⟨_, _, e⟩ | ⟨_, hm, e⟩ | ⟨_, _, e⟩ := attemptCommand_cases (i := i) (m := m) hf <;> rw [e]
  · exact refl i m.reply s.seq
  · exact refl i m.reply s.seq
  · exact { refl i m.reply s.seq with result := fun h => absurd rfl h, response := by simp [hr, hm] }
  · exact { refl i m.reply s.seq with read := fun h => absurd hr h }

/-- The first try latches the command and attempts it, or ends the operation at a closed transport. -/
theorem firstTry (hf : s.fault = none) (hr : s.seq.rsmState = .idle) :
    KeptBy i m.reply s.seq (s.firstTry i m).seq := by
  by_cases hopen : s.transportOpen = true
  · rw [firstTry_of_open hopen]
    have attempted : KeptBy i m.reply (s.started i).seq ((s.started i).attemptCommand i m).seq := attemptCommand hf hr
    exact
      { command := .inr (attempted.command.elim id id)
        auth := fun _ => attempted.auth nofun
        payload := .inr (attempted.payload.resolve_left nofun)
        result := attempted.result
        read := fun h => absurd hr h
        response := attempted.response }
  · simp only [State.firstTry, hopen]
    exact { refl i m.reply s.seq with result := fun h => absurd rfl h, read := fun h => absurd hr h }

/-- Only the supervisor's start encodes a password, only its start and its sleep count an attempt, and only an end that
leaves the operation reports a result. -/
theorem superviseCommand (hf : s.fault = none) (hr : s.seq.rsmState = .idle) (ho : s.seq.opState = .resync) :
    KeptBy i reply s.seq (s.superviseCommand m.failure).seq := by
  have supervised : ¬ s.seq.opState ≠ .resync := by simpa using ho
  unfold State.superviseCommand
  cases hs : s.seq.supState
  case idle =>
    obtain ⟨_, e⟩ | ⟨_, _, e⟩ := resyncStart_cases m.failure s <;> simp only [e]
    · exact { refl i reply s.seq with auth := fun h => absurd h supervised, result := fun h => absurd rfl h }
    · exact { refl i reply s.seq with auth := fun h => absurd h supervised, payload := .inl ⟨ho, hs, hr⟩ }
  case attempt =>
    obtain ⟨_, e⟩ | ⟨_, _, e⟩ | ⟨_, e⟩ := roundTrip_cases hf <;> simp only [e]
    · exact refl i reply s.seq
    · exact refl i reply s.seq
    · exact { refl i reply s.seq with read := fun h => absurd hr h }
  case sleeping => exact { refl i reply s.seq with auth := fun h => absurd h supervised }
  case synced => exact { refl i reply s.seq with result := fun _ => rfl }
  case failed => exact { refl i reply s.seq with result := fun h => absurd rfl h }

/-- Every step of a command's operation, wherever it stands. -/
theorem operateStep (hf : s.fault = none) : KeptBy i m.reply s.seq (s.operateStep i m).seq := by
  unfold State.operateStep
  cases hr : s.seq.rsmState
  case accumulating => exact rsmStep hr
  case satisfied => exact afterRead (.inl hr)
  case timedOut => exact afterRead (.inr hr)
  case idle =>
    cases ho : s.seq.opState
    case resync => exact superviseCommand hf hr ho
    case retry => exact attemptCommand hf hr
    all_goals exact firstTry hf hr

end Sequencer.KeptBy

/-! ## The frame of a command's meaning -/

/-- Settles O29: the operation's frame for the shared state, the registers' frame for the requester, the streams' for
`rx`. -/
theorem execFrame : Obligations.ExecFrame := by
  intro i s t h
  obtain ⟨hf, rfl⟩ := exec_next h
  have shared := operateStep_frame i (specMeaning s.cfg i) s
  have kept := Sequencer.KeptBy.operateStep (i := i) (m := specMeaning s.cfg i) hf
  obtain ⟨received, -, -⟩ := operateStep_streams i (specMeaning s.cfg i) s
  rw [shared, hasReply_eq_true_iff]
  exact ⟨rfl, rfl, rfl, rfl, rfl, rfl, rfl, rfl, rfl, rfl, rfl, kept.command, kept.auth, kept.payload, kept.result,
    kept.read, kept.response, received⟩

end Sys2Proof.Machine

end

section
/-! PROOFS of the family 41_codec_decoders.md: the password codec in both directions, the word and bit decoders, the ASCII
temperature, and the step that completes a query. The ASCII decoder is tied to the grammar of R179 once, as an equivalence
(`matchesDecimal_iff`); that a text inside it is decoded and that one outside it is not are both read off from there. -/

namespace Sys2Proof.Machine

/-! ## Digits and the number they spell -/

theorem asciiDigits_iff (ds : Bytes) : AsciiDigits ds ↔ ∀ d ∈ ds, isDigit d = true := by
  simp only [AsciiDigits, isDigit_iff]

/-- The fold of `decimalValue`, from any number already read. -/
theorem foldl_digits_eq_spelled (v : Nat) (ds : Bytes) :
    ds.foldl (fun v c => 10 * v + (c.toNat - 0x30)) v = v * 10 ^ ds.length + spelled ds := by
  induction ds generalizing v with
  | nil => simp [spelled]
  | cons d ds ih => rw [List.foldl_cons, ih, spelled, List.length_cons]; ring

theorem decimalValue_eq_spelled (ds : Bytes) : decimalValue ds = spelled ds := by
  rw [decimalValue, foldl_digits_eq_spelled, Nat.zero_mul, Nat.zero_add]

/-! ## The password codec -/

theorem wireValue_lt (a b c : Byte) : wireValue a b c < 16777216 := by
  unfold wireValue
  omega

theorem wireValue_byteOf {v : Nat} (h : v < 16777216) :
    wireValue (byteOf v) (byteOf (v / 256)) (byteOf (v / 65536)) = v := by
  simp only [wireValue, byteOf, BitVec.toNat_ofNat]
  omega

theorem decodePassword_of_le {a b c : Byte} (h : wireValue a b c ≤ 999999) :
    decodePassword a b c = .password (wireValue a b c) (passwordText (wireValue a b c)) true := by
  simp only [decodePassword, Config.passwordMax, h, decide_true]

theorem decodePassword_of_lt {a b c : Byte} (h : 999999 < wireValue a b c) :
    decodePassword a b c = .password (wireValue a b c) (passwordText (wireValue a b c)) false := by
  simp only [decodePassword, Config.passwordMax, Nat.not_le.2 h, decide_false]

theorem digitCode_eq {d : Byte} {n : Nat} (hd : 0x30 ≤ d.toNat) (h : n % 10 = d.toNat - 0x30) : digitCode n = d := by
  apply BitVec.eq_of_toNat_eq
  rw [digitCode_toNat]
  omega

/-- A valid text is the text of its value: its digits are the value's decimal places. -/
theorem passwordText_decimalValue {pw : Bytes} (h : validPassword pw = true) : passwordText (decimalValue pw) = pw := by
  have inRange := decimalValue_le_of_valid h
  obtain ⟨hlen, digits⟩ := (validPassword_iff pw).1 h
  match pw, hlen with
  | [d0, d1, d2, d3, d4, d5], _ =>
    rw [passwordText_eq inRange, decimalValue_six]
    simp only [List.forall_mem_cons] at digits
    obtain ⟨h0, h1, h2, h3, h4, h5, -⟩ := digits
    rw [digitCode_eq h0.1, digitCode_eq h1.1, digitCode_eq h2.1, digitCode_eq h3.1, digitCode_eq h4.1,
      digitCode_eq h5.1] <;> omega

theorem length_decimalDigits_of_large {v : Nat} (hl : 999999 < v) (hu : v < 16777216) :
    (decimalDigits 8 v).length = if v < 10000000 then 7 else 8 := by
  split
  · exact length_decimalDigits (k := 6) hl ‹_› (by decide)
  · exact length_decimalDigits (k := 7) (Nat.not_lt.1 ‹_›) (by omega) (by decide)

/-- A value of more than six digits is written without padding. -/
theorem passwordText_of_large {v : Nat} (hl : 999999 < v) (hu : v < 16777216) :
    passwordText v = decimalDigits 8 v := by
  have padding : Config.passwordLen - (decimalDigits 8 v).length = 0 := by
    rw [length_decimalDigits_of_large hl hu, Config.passwordLen]
    split <;> rfl
  simp only [passwordText, padding, List.replicate_zero, List.nil_append]

/-- Settles O8: a valid text is the text of its value, the bytes of a value in range are those of its text, and the text
of a larger value has more than six digits. -/
theorem passwordRoundTrip : Obligations.PasswordRoundTrip := by
  constructor
  · intro pw hlen digits
    have valid : validPassword pw = true := (validPassword_iff pw).2 ⟨hlen, digits⟩
    have inRange := decimalValue_le_of_valid valid
    have value := wireValue_byteOf (v := decimalValue pw) (by omega)
    refine ⟨_, _, _, encodePassword_of_valid valid inRange, ?_⟩
    rw [decodePassword_of_le (value.trans_le inRange), value, passwordText_decimalValue valid, decimalValue_eq_spelled]
  · intro a b c v hv
    obtain rfl : v = wireValue a b c := hv
    have hu := wireValue_lt a b c
    refine ⟨fun h => ⟨_, decodePassword_of_le h, encodePassword_wire h⟩, fun h => ⟨_, decodePassword_of_lt h, ?_⟩⟩
    have length := length_decimalDigits_of_large h hu
    rw [passwordText_of_large h hu]
    refine ⟨(asciiDigits_iff _).2 (List.all_eq_true.1 (all_isDigit_decimalDigits 8 _)), ?_, length,
      encodePasswordRule.2 _ (.inl ?_)⟩
    · rw [← decimalValue_eq_spelled, decimalValue_decimalDigits (by omega)]
    · rw [length]
      split <;> decide

/-! ## Bits and words -/

/-- Shifted to the right and masked with 1, a byte is 1 when the bit shifted there is set. -/
theorem shiftRight_and_one_eq_one_iff (b : Byte) (k : Nat) : (b >>> k) &&& 1 = 1 ↔ b.getLsbD k = true := by
  have shifted : (b >>> k).getLsbD 0 = b.getLsbD k := by rw [BitVec.getLsbD_ushiftRight, Nat.add_zero]
  have masked : (b >>> k) &&& 1#8 = BitVec.setWidth 8 (BitVec.ofBool ((b >>> k).getLsbD 0)) :=
    BitVec.and_one_eq_setWidth_ofBool_getLsbD
  rw [BitVec.ofNat_eq_ofNat, masked, shifted]
  cases b.getLsbD k <;> decide

/-- Settles O11: the shift law is about any byte; of the bytes named, the first has every bit set, the second none and the
last one. -/
theorem relayBitLaw : Obligations.RelayBitLaw := by
  refine ⟨fun b n _ _ => ?_, fun n _ _ => ⟨?_, ?_⟩, fun n m _ _ _ _ => ?_⟩
  · rw [decodeRelayBit, Bool.eq_iff_iff, decide_eq_true_eq, shiftRight_and_one_eq_one_iff]
  · have allSet : (0xFF : Byte) = BitVec.allOnes 8 := by decide
    rw [decodeRelayBit, allSet, BitVec.getLsbD_allOnes, decide_eq_true_eq]
    omega
  · exact BitVec.getLsbD_zero
  · rw [decodeRelayBit, byteOf, BitVec.getLsbD_ofNat, Nat.testBit_two_pow, Bool.eq_iff_iff]
    simp only [Bool.and_eq_true, decide_eq_true_eq]
    omega

/-- Settles O12: two bytes are at most 255 each; an unknown mode byte passes both comparisons. -/
theorem wordDecoders : Obligations.WordDecoders := by
  refine ⟨fun b0 b1 => ⟨rfl, ?_, rfl, ?_⟩, fun cfg b hl hm => ?_, fun cfg b0 b1 => ⟨fun h => ?_, fun h => ?_⟩⟩
  · rw [decodeTempRaw]
    omega
  · rw [decodeFirmwareVersion]
    omega
  · rw [decodeMode, if_neg hl, if_neg hm]
  · rw [decodeBoardId, if_pos h]
  · rw [decodeBoardId, if_neg (Bool.eq_false_iff.1 h)]

/-! ## White space around a text -/

theorem isSpace_iff (c : Byte) : isSpace c = true ↔ c ∈ [(0x09 : Byte), 0x0A, 0x0B, 0x0C, 0x0D, 0x20] :=
  List.contains_iff_mem

theorem whiteSpace_iff (bs : Bytes) : WhiteSpace bs ↔ ∀ c ∈ bs, isSpace c = true := by
  simp only [WhiteSpace, isSpace_iff]

/-- White space is below every byte of the grammar. -/
theorem isSpace_of_visible {c : Byte} (h : 0x20 < c.toNat) : isSpace c = false := by
  have low : ∀ c ∈ [(0x09 : Byte), 0x0A, 0x0B, 0x0C, 0x0D, 0x20], c.toNat ≤ 0x20 := by decide
  exact Bool.eq_false_iff.2 fun space => Nat.not_lt.2 (low c ((isSpace_iff c).1 space)) h

theorem dropWhile_isSpace_append {pre t rest : Bytes} (hpre : ∀ c ∈ pre, isSpace c = true)
    (ht : ∀ c ∈ t, isSpace c = false) (hne : t ≠ []) : (pre ++ (t ++ rest)).dropWhile isSpace = t ++ rest := by
  rw [List.dropWhile_append_of_pos hpre]
  obtain ⟨c, cs, rfl⟩ := List.exists_cons_of_ne_nil hne
  rw [List.cons_append, List.dropWhile_cons_of_neg (by simp [ht c])]

/-- Trimming takes the white space before and after a text. -/
theorem trim_append {pre t post : Bytes} (hpre : WhiteSpace pre) (hpost : WhiteSpace post)
    (ht : ∀ c ∈ t, 0x20 < c.toNat) (hne : t ≠ []) : trim (pre ++ t ++ post) = t := by
  rw [whiteSpace_iff] at hpre hpost
  have visible : ∀ c ∈ t, isSpace c = false := fun c hc => isSpace_of_visible (ht c hc)
  have backwards := dropWhile_isSpace_append (pre := post.reverse) (t := t.reverse) (rest := [])
    (by simpa using hpost) (by simpa using visible) (by simpa using hne)
  rw [List.append_nil] at backwards
  rw [trim, List.append_assoc, dropWhile_isSpace_append hpre visible hne, List.reverse_append, backwards,
    List.reverse_reverse]

/-- Every reply is its trimmed text with white space around it. -/
theorem exists_eq_append_trim (bs : Bytes) :
    ∃ pre post, bs = pre ++ trim bs ++ post ∧ WhiteSpace pre ∧ WhiteSpace post := by
  refine ⟨bs.takeWhile isSpace, (bs.dropWhile isSpace).rtakeWhile isSpace, ?_,
    (whiteSpace_iff _).2 fun _ => List.mem_takeWhile_imp, (whiteSpace_iff _).2 fun _ => List.mem_rtakeWhile_imp⟩
  have trimmed : trim bs = (bs.dropWhile isSpace).rdropWhile isSpace := rfl
  rw [trimmed, List.append_assoc, List.rdropWhile_append_rtakeWhile, List.takeWhile_append_dropWhile]

/-! ## The grammar of an ASCII temperature -/

/-- The decimal part of the grammar of R179, `DIGIT+ [ '.' DIGIT+ ]`, with its two runs of digits. -/
def UnsignedDecimal (t ip fp : Bytes) : Prop :=
  ip ≠ [] ∧ AsciiDigits ip ∧ AsciiDigits fp ∧ ((fp = [] ∧ t = ip) ∨ (fp ≠ [] ∧ t = ip ++ 0x2E :: fp))

/-- The sign of the grammar of R179, `[ '+' | '-' ]`, and whether it is `'-'`. -/
def SignText (sign : Bytes) (neg : Bool) : Prop :=
  sign = [] ∧ neg = false ∨ sign = [0x2B] ∧ neg = false ∨ sign = [0x2D] ∧ neg = true

theorem matchesDecimal_iff_exists (t : Bytes) (neg : Bool) (ip fp : Bytes) :
    MatchesDecimal t neg ip fp ↔ ∃ sign u, SignText sign neg ∧ UnsignedDecimal u ip fp ∧ t = sign ++ u := by
  constructor
  · rintro ⟨hne, hip, hfp, sign, hs, ⟨hf, rfl⟩ | ⟨hf, rfl⟩⟩
    · exact ⟨sign, ip, hs, ⟨hne, hip, hfp, .inl ⟨hf, rfl⟩⟩, rfl⟩
    · exact ⟨sign, ip ++ 0x2E :: fp, hs, ⟨hne, hip, hfp, .inr ⟨hf, rfl⟩⟩, by simp⟩
  · rintro ⟨sign, u, hs, ⟨hne, hip, hfp, ⟨hf, rfl⟩ | ⟨hf, rfl⟩⟩, rfl⟩
    · exact ⟨hne, hip, hfp, sign, hs, .inl ⟨hf, rfl⟩⟩
    · exact ⟨hne, hip, hfp, sign, hs, .inr ⟨hf, by simp⟩⟩

theorem unsignedDecimal_of_takeDecimal {t ip fp : Bytes} (h : takeDecimal t = some (ip, fp)) :
    UnsignedDecimal t ip fp := by
  have digits : AsciiDigits (t.takeWhile isDigit) := (asciiDigits_iff _).2 fun _ => List.mem_takeWhile_imp
  have parts := List.takeWhile_append_dropWhile (p := isDigit) (l := t)
  simp only [takeDecimal] at h
  split_ifs at h with hne
  split at h
  case h_1 rest =>
    cases h
    rw [rest, List.append_nil] at parts
    exact ⟨hne, digits, nofun, .inl ⟨rfl, parts.symm⟩⟩
  case h_2 p fp' rest =>
    split_ifs at h with fraction
    cases h
    simp only [Bool.and_eq_true, decide_eq_true_eq, List.all_eq_true] at fraction
    obtain ⟨⟨rfl, hfp⟩, fractionDigits⟩ := fraction
    rw [rest] at parts
    exact ⟨hne, digits, (asciiDigits_iff _).2 fractionDigits, .inr ⟨hfp, parts.symm⟩⟩

theorem takeDecimal_of_unsignedDecimal {t ip fp : Bytes} (h : UnsignedDecimal t ip fp) :
    takeDecimal t = some (ip, fp) := by
  obtain ⟨hne, hip, hfp, hform⟩ := h
  rw [asciiDigits_iff] at hip hfp
  obtain ⟨rfl, rfl⟩ | ⟨hf, rfl⟩ := hform
  · have front : t.takeWhile isDigit = t := List.takeWhile_eq_self_iff.2 hip
    have rest : t.dropWhile isDigit = [] := List.dropWhile_eq_nil_iff.2 hip
    simp only [takeDecimal, front, rest, hne, if_false]
  · have point : ¬ isDigit 0x2E = true := by decide
    have front : (ip ++ 0x2E :: fp).takeWhile isDigit = ip := by
      rw [List.takeWhile_append_of_pos hip, List.takeWhile_cons_of_neg point, List.append_nil]
    have rest : (ip ++ 0x2E :: fp).dropWhile isDigit = 0x2E :: fp := by
      rw [List.dropWhile_append_of_pos hip, List.dropWhile_cons_of_neg point]
    have fractionDigits : fp.all isDigit = true := List.all_eq_true.2 hfp
    simp only [takeDecimal, front, rest, hne, if_false, ne_eq, hf, not_false_eq_true, fractionDigits, decide_true,
      Bool.and_self, if_true]

/-- `takeDecimal` recognises exactly the decimal part of the grammar. -/
theorem takeDecimal_eq_some_iff (t ip fp : Bytes) : takeDecimal t = some (ip, fp) ↔ UnsignedDecimal t ip fp :=
  ⟨unsignedDecimal_of_takeDecimal, takeDecimal_of_unsignedDecimal⟩

theorem exists_eq_sign_append (t : Bytes) : ∃ sign, SignText sign (takeSign t).1 ∧ t = sign ++ (takeSign t).2 := by
  cases t with
  | nil => exact ⟨[], .inl ⟨rfl, rfl⟩, rfl⟩
  | cons c cs =>
    rw [takeSign]
    split_ifs with hminus hplus
    · exact ⟨[0x2D], .inr (.inr ⟨rfl, rfl⟩), by rw [hminus]; rfl⟩
    · exact ⟨[0x2B], .inr (.inl ⟨rfl, rfl⟩), by rw [hplus]; rfl⟩
    · exact ⟨[], .inl ⟨rfl, rfl⟩, rfl⟩

theorem takeSign_of_digit {d : Byte} (h : 0x30 ≤ d.toNat) (ds : Bytes) : takeSign (d :: ds) = (false, d :: ds) := by
  have noMinus : d ≠ 0x2D := by rintro rfl; exact absurd h (by decide)
  have noPlus : d ≠ 0x2B := by rintro rfl; exact absurd h (by decide)
  rw [takeSign, if_neg noMinus, if_neg noPlus]

/-- What a decimal begins with is no sign, so the sign before it is all `takeSign` takes. -/
theorem takeSign_append {sign u ip fp : Bytes} {neg : Bool} (hs : SignText sign neg) (hu : UnsignedDecimal u ip fp) :
    takeSign (sign ++ u) = (neg, u) := by
  obtain ⟨rfl, rfl⟩ | ⟨rfl, rfl⟩ | ⟨rfl, rfl⟩ := hs
  case inr.inl => rfl
  case inr.inr => rfl
  case inl =>
    obtain ⟨hne, hip, -, hform⟩ := hu
    obtain ⟨d, ds, rfl⟩ := List.exists_cons_of_ne_nil hne
    have digit := (hip d List.mem_cons_self).1
    obtain ⟨-, rfl⟩ | ⟨-, rfl⟩ := hform <;> exact takeSign_of_digit digit _

/-- The decoder's two parsing steps recognise the grammar of R179, and no other text. -/
theorem matchesDecimal_iff (t : Bytes) (neg : Bool) (ip fp : Bytes) :
    MatchesDecimal t neg ip fp ↔ (takeSign t).1 = neg ∧ takeDecimal (takeSign t).2 = some (ip, fp) := by
  rw [matchesDecimal_iff_exists]
  constructor
  · rintro ⟨sign, u, hs, hu, rfl⟩
    rw [takeSign_append hs hu]
    exact ⟨rfl, (takeDecimal_eq_some_iff u ip fp).2 hu⟩
  · rintro ⟨rfl, hu⟩
    obtain ⟨sign, hs, ht⟩ := exists_eq_sign_append t
    exact ⟨sign, _, hs, (takeDecimal_eq_some_iff _ ip fp).1 hu, ht⟩

/-- Signs, digits and the point are above white space. -/
theorem visible_of_matchesDecimal {t ip fp : Bytes} {neg : Bool} (h : MatchesDecimal t neg ip fp) :
    ∀ c ∈ t, 0x20 < c.toNat := by
  obtain ⟨sign, u, hs, ⟨-, hip, hfp, hform⟩, rfl⟩ := (matchesDecimal_iff_exists t neg ip fp).1 h
  have visibleSign : ∀ c ∈ sign, 0x20 < c.toNat := by
    obtain ⟨rfl, -⟩ | ⟨rfl, -⟩ | ⟨rfl, -⟩ := hs <;> decide
  have visibleDigits {ds : Bytes} (hds : AsciiDigits ds) : ∀ c ∈ ds, 0x20 < c.toNat := fun c hc => by
    have := hds c hc
    omega
  refine List.forall_mem_append.2 ⟨visibleSign, ?_⟩
  obtain ⟨-, rfl⟩ | ⟨-, rfl⟩ := hform
  · exact visibleDigits hip
  · exact List.forall_mem_append.2 ⟨visibleDigits hip, List.forall_mem_cons.2 ⟨by decide, visibleDigits hfp⟩⟩

theorem ne_nil_of_matchesDecimal {t ip fp : Bytes} {neg : Bool} (h : MatchesDecimal t neg ip fp) : t ≠ [] := by
  rintro rfl
  obtain ⟨-, h⟩ := (matchesDecimal_iff [] neg ip fp).1 h
  exact absurd h nofun

/-! ## The ASCII temperature -/

theorem decodeTempAscii_of_some {bs ip fp : Bytes} (h : takeDecimal (takeSign (trim bs)).2 = some (ip, fp)) :
    decodeTempAscii bs = .tempAscii ((takeSign (trim bs)).1 && decide (decimalValue (ip ++ fp) ≠ 0))
      (decimalValue (ip ++ fp)) fp.length := by
  simp only [decodeTempAscii, h]

theorem decodeTempAscii_of_none {bs : Bytes} (h : takeDecimal (takeSign (trim bs)).2 = none) :
    decodeTempAscii bs = .tempAscii false 0 0 := by
  simp only [decodeTempAscii, h]

/-- Settles O14: trimming leaves the text, which the parser takes apart as the grammar does. -/
theorem asciiTemperatureParses : Obligations.AsciiTemperatureParses := by
  intro pre t post ip fp neg hpre hpost h
  have trimmed := trim_append hpre hpost (visible_of_matchesDecimal h) (ne_nil_of_matchesDecimal h)
  obtain ⟨rfl, parsed⟩ := (matchesDecimal_iff t neg ip fp).1 h
  rw [← trimmed] at parsed
  rw [decodeTempAscii_of_some parsed, trimmed, decimalValue_eq_spelled]

/-- Settles O15: a reply the parser accepts is a text of the grammar with white space around it. -/
theorem asciiTemperatureDefaults : Obligations.AsciiTemperatureDefaults := by
  intro bs outside
  cases parsed : takeDecimal (takeSign (trim bs)).2 with
  | none => exact decodeTempAscii_of_none parsed
  | some digits =>
    obtain ⟨pre, post, hbs, hpre, hpost⟩ := exists_eq_append_trim bs
    exact absurd ⟨pre, trim bs, post, _, _, _, hbs, hpre, hpost, (matchesDecimal_iff _ _ _ _).2 ⟨rfl, parsed⟩⟩ outside

/-! ## The end of a query -/

/-- The registers after a satisfied read (R209). -/
theorem rsmFinish_of_satisfied {q : Sequencer} (h : q.rsmState = .satisfied) :
    q.rsmFinish = { q with resp := { bytes := q.acc, ok := true }, acc := [], rsmState := .idle } := by
  rw [Sequencer.rsmFinish, h]
  rfl

theorem operateStep_of_satisfied {s : State} (h : s.seq.rsmState = .satisfied) (i : Instr) (m : CommandMeaning) :
    s.operateStep i m = s.endExchange.afterRead m := by
  simp only [State.operateStep, h]

/-- A read that ended with a Response in the first try or the retry ends the operation with its decoded value. -/
theorem afterRead_of_ok {s : State} (ho : s.seq.opState = .firstTry ∨ s.seq.opState = .retry)
    (hok : s.seq.resp.ok = true) (m : CommandMeaning) :
    s.afterRead m = s.finish (m.decode s.seq.resp.bytes) .none := by
  obtain ho | ho := ho <;> simp only [State.afterRead, ho, hok, if_true]

/-- Settles O23: the read's end sets the Response, and the operation ends with what the command decodes from it. -/
theorem queryCompletes : Obligations.QueryCompletes := by
  intro i s _ hf hr ho
  have finished := rsmFinish_of_satisfied hr
  have inTry : s.endExchange.seq.opState = .firstTry ∨ s.endExchange.seq.opState = .retry := by simpa using ho
  have satisfied : s.endExchange.seq.resp.ok = true := by rw [endExchange_seq, finished]
  rw [exec_of_noFault hf, operateStep_of_satisfied hr, afterRead_of_ok inTry satisfied, endExchange_seq, finished,
    State.endExchange, finished]
  rfl

end Sys2Proof.Machine

end

section
/-! PROOFS of the family 42_read_state_machine.md: the three branches of a read step, and how a read ends on a silent
line. -/

namespace Sys2Proof.Machine

/-! ## The exits of a step -/

/-- How a read that is not full ends once its idle clock exceeds the timeout (R207, R208). -/
def Sequencer.silentEnd (q : Sequencer) : RsmState :=
  if q.rsmExpected ≤ 0 ∧ 1 ≤ q.acc.length then .satisfied else .timedOut

theorem rsmExit_of_accumulating {q : Sequencer} (ha : q.rsmState = .accumulating) :
    q.rsmExit = { q with rsmState :=
      if 0 < q.rsmExpected ∧ q.rsmExpected ≤ q.acc.length then .satisfied
      else if q.idleMs ≤ q.rsmTimeoutMs then .accumulating else q.silentEnd } := by
  unfold Sequencer.rsmExit
  by_cases full : 0 < q.rsmExpected ∧ q.rsmExpected ≤ q.acc.length
  · simp only [full, and_self, if_true]
  · by_cases waiting : q.idleMs ≤ q.rsmTimeoutMs
    · simp only [full, waiting, waiting.not_gt, if_false, if_true, ← ha]
    · simp only [full, waiting, not_le.1 waiting, if_false, if_true, Sequencer.silentEnd]
      split <;> rfl

/-! ## The branches of a step -/

theorem exec_of_accumulating {s : State} (hf : s.fault = none) (ha : s.seq.rsmState = .accumulating) (i : Instr) :
    exec i s = .next s.rsmStep := by
  rw [exec_of_noFault hf, operateStep_of_accumulating ha]

theorem overflows_eq_false_iff {s : State} {n : Nat} :
    s.overflows n = false ↔ ∀ cap, s.cfg.respCap = some cap → s.seq.acc.length + n ≤ cap := by
  unfold State.overflows
  cases s.cfg.respCap <;> simp

theorem overflows_of_respCap {s : State} {n cap : Nat} (hc : s.cfg.respCap = some cap)
    (h : cap < s.seq.acc.length + n) : s.overflows n = true := by
  simp only [State.overflows, hc, h, decide_true]

/-- The read branch (R203). -/
theorem rsmStep_of_room {s : State} (hx : s.rx ≠ []) (hroom : s.overflows s.rx.length = false) :
    s.rsmStep = { s with rx := [], seq := (s.seq.rsmTake s.rx).rsmExit } := by
  obtain ⟨_, ho, _⟩ | ⟨_, _, e⟩ | ⟨h, _⟩ := rsmStep_cases s
  · simp [hroom] at ho
  · exact e
  · exact absurd h hx

/-- The overflow of a read step (R203, R209): a read cut short is finished without a Response. -/
theorem rsmStep_of_overflow {s : State} (ha : s.seq.rsmState = .accumulating) (hx : s.rx ≠ [])
    (ho : s.overflows s.rx.length = true) :
    s.rsmStep = { s with gateHeld := false, fault := some .bufferOverflow
                         seq := { s.seq with acc := [], rsmState := .idle } } := by
  obtain ⟨_, _, e⟩ | ⟨_, hroom, _⟩ | ⟨h, _⟩ := rsmStep_cases s
  · simp only [e, Sequencer.rsmFinish, ha]
  · simp [hroom] at ho
  · exact absurd h hx

/-- The sleep branch (R204), with its exits. -/
theorem rsmStep_of_silence {s : State} (ha : s.seq.rsmState = .accumulating) (hx : s.rx = []) :
    s.rsmStep = { s with seq := { s.seq with
      idleMs := s.seq.idleMs + 10
      sleptMs := s.seq.sleptMs + 10
      rsmState :=
        if 0 < s.seq.rsmExpected ∧ s.seq.rsmExpected ≤ s.seq.acc.length then .satisfied
        else if s.seq.idleMs + 10 ≤ s.seq.rsmTimeoutMs then .accumulating else s.seq.silentEnd } } := by
  obtain ⟨h, _⟩ | ⟨h, _⟩ | ⟨_, e⟩ := rsmStep_cases s
  · exact absurd hx h
  · exact absurd hx h
  · have reading : s.seq.rsmSleep.rsmState = .accumulating := ha
    rw [e, rsmExit_of_accumulating reading]
    rfl

/-- Settles O16: the idle clock restarts at 0, which no timeout is below, so only a full read ends. -/
theorem readBranch : Obligations.ReadBranch := by
  intro i s hf ha hx hroom
  have reading : (s.seq.rsmTake s.rx).rsmState = .accumulating := ha
  have waiting : (s.seq.rsmTake s.rx).idleMs ≤ (s.seq.rsmTake s.rx).rsmTimeoutMs := Nat.zero_le _
  rw [exec_of_accumulating hf ha, rsmStep_of_room hx (overflows_eq_false_iff.2 hroom),
    rsmExit_of_accumulating reading, if_pos waiting]
  rfl

/-- Settles O17: the read is cut short while it accumulates, so its finish leaves the Response as it was. -/
theorem readOverflow : Obligations.ReadOverflow := by
  intro i s cap hf ha hx hc hover
  rw [exec_of_accumulating hf ha, rsmStep_of_overflow ha hx (overflows_of_respCap hc hover)]

/-- Settles O18: the sleep branch's exits are taken on the idle clock after the poll. -/
theorem sleepBranch : Obligations.SleepBranch := by
  intro i s hf ha hx
  rw [exec_of_accumulating hf ha, rsmStep_of_silence ha hx]
  rfl

/-! ## A silent line -/

/-- `K(t)` is the first number of polls that exceeds the timeout. -/
theorem exceeds_iff_eq_pollsOf {k t : Nat} (hk : k + 1 ≤ pollsOf t) : ¬ 10 * k + 10 ≤ t ↔ k + 1 = pollsOf t := by
  simp only [pollsOf, Config.pollMs] at hk ⊢
  omega

/-- After `k` polls on a silent line: the idle clock, which was at 0, is at `10 k`, and the read's state is `r`. -/
def State.polled (k : Nat) (r : RsmState) (s : State) : State :=
  { s with seq := { s.seq with idleMs := 10 * k, sleptMs := s.seq.sleptMs + 10 * k, rsmState := r } }

theorem polled_zero {s : State} (ha : s.seq.rsmState = .accumulating) (h0 : s.seq.idleMs = 0) :
    s.polled 0 .accumulating = s := by
  rw [State.polled, Nat.mul_zero, Nat.add_zero, ← ha, ← h0]

theorem rsmStep_polled {s : State} (hx : s.rx = [])
    (notFull : ¬ (0 < s.seq.rsmExpected ∧ s.seq.rsmExpected ≤ s.seq.acc.length)) (k : Nat) :
    (s.polled k .accumulating).rsmStep =
      s.polled (k + 1) (if 10 * k + 10 ≤ s.seq.rsmTimeoutMs then .accumulating else s.seq.silentEnd) := by
  have silent : (s.polled k .accumulating).rx = [] := hx
  rw [rsmStep_of_silence rfl silent]
  simp only [State.polled, notFull, if_false, Nat.mul_succ, Nat.add_assoc]
  rfl

/-- On a silent line a read that is not full accumulates for `K(t)` polls and then ends (R211, R212). -/
theorem rsmStep_iterate_of_silence {s : State} (ha : s.seq.rsmState = .accumulating) (h0 : s.seq.idleMs = 0)
    (hx : s.rx = []) (notFull : ¬ (0 < s.seq.rsmExpected ∧ s.seq.rsmExpected ≤ s.seq.acc.length)) (k : Nat)
    (hk : k ≤ pollsOf s.seq.rsmTimeoutMs) :
    State.rsmStep^[k] s = s.polled k (if k = pollsOf s.seq.rsmTimeoutMs then s.seq.silentEnd else .accumulating) := by
  induction k with
  | zero =>
    have started : 0 ≠ pollsOf s.seq.rsmTimeoutMs := (Nat.succ_ne_zero _).symm
    rw [if_neg started, polled_zero ha h0]
    rfl
  | succ k ih =>
    have earlier : k ≠ pollsOf s.seq.rsmTimeoutMs := Nat.ne_of_lt hk
    rw [Function.iterate_succ_apply', ih (Nat.le_of_lt hk), if_neg earlier, rsmStep_polled hx notFull]
    simp only [← exceeds_iff_eq_pollsOf hk, ite_not]

/-- Settles O19: a read without a byte is neither full nor satisfied by silence. -/
theorem silentReadTimesOut : Obligations.SilentReadTimesOut := by
  intro s k ha hacc h0 hx hk
  have notFull : ¬ (0 < s.seq.rsmExpected ∧ s.seq.rsmExpected ≤ s.seq.acc.length) := by
    rw [hacc, List.length_nil]
    omega
  have ends : s.seq.silentEnd = .timedOut := by simp [Sequencer.silentEnd, hacc]
  rw [rsmStep_iterate_of_silence ha h0 hx notFull k hk, ends]
  rfl

/-- Settles O20: an unbounded read is never full, and silence satisfies it once it has a byte. -/
theorem unboundedReadEndsOnSilence : Obligations.UnboundedReadEndsOnSilence := by
  intro s k ha hexp hacc h0 hx hk
  have notFull : ¬ (0 < s.seq.rsmExpected ∧ s.seq.rsmExpected ≤ s.seq.acc.length) := fun h => absurd hexp h.1.not_ge
  have ends : s.seq.silentEnd = .satisfied := if_pos ⟨hexp, List.length_pos_iff.2 hacc⟩
  rw [rsmStep_iterate_of_silence ha h0 hx notFull k hk, ends]
  rfl

end Sys2Proof.Machine

end

section
/-! PROOFS of the family 43_sync_supervisor.md: how a read's end starts the supervisor or reports `Timeout`, the
supervisor's moves, the bare resynchronisation, and two whole operations, on a prompt reply and on a dead link. -/

namespace Sys2Proof.Machine

/-! ## The end of a read that timed out -/

/-- The registers after a read that timed out (R209). -/
theorem rsmFinish_of_timedOut {q : Sequencer} (h : q.rsmState = .timedOut) :
    q.rsmFinish = { q with resp := { bytes := [], ok := false }, acc := [], rsmState := .idle } := by
  rw [Sequencer.rsmFinish, h]
  rfl

theorem operateStep_of_timedOut {s : State} (h : s.seq.rsmState = .timedOut) (i : Instr) (m : CommandMeaning) :
    s.operateStep i m = s.endExchange.afterRead m := by
  simp only [State.operateStep, h]

/-- An exchange whose read timed out ends with the empty Response and frees the gate (R209, R292). -/
theorem endExchange_of_timedOut {s : State} (h : s.seq.rsmState = .timedOut) :
    s.endExchange = { s with
      gateHeld := false
      seq := { s.seq with resp := { bytes := [], ok := false }, acc := [], rsmState := .idle } } := by
  rw [State.endExchange, rsmFinish_of_timedOut h]
  rfl

/-- The first try's timeout is not reported; it starts the supervisor (R230). -/
theorem exec_of_firstTimeout {s : State} (hf : s.fault = none) (hr : s.seq.rsmState = .timedOut)
    (ho : s.seq.opState = .firstTry) (i : Instr) :
    exec i s = .next { s with
      gateHeld := false
      seq := { s.seq with
        resp := { bytes := [], ok := false }, acc := [], rsmState := .idle, opState := .resync } } := by
  rw [exec_of_noFault hf, operateStep_of_timedOut hr, endExchange_of_timedOut hr]
  simp only [State.afterRead, ho, Bool.false_eq_true, if_false]

/-- Settles O25: the retry's read ends without a Response, and the operation raises `Timeout`. -/
theorem retryTimeoutReported : Obligations.RetryTimeoutReported := by
  intro i s hf hr ho
  rw [exec_of_noFault hf, operateStep_of_timedOut hr, endExchange_of_timedOut hr]
  simp only [State.afterRead, ho]
  rfl

/-! ## What starts the supervisor -/

theorem rsmStep_opState (s : State) : s.rsmStep.seq.opState = s.seq.opState := by
  obtain ⟨_, _, e⟩ | ⟨_, _, e⟩ | ⟨_, e⟩ := rsmStep_cases s <;> rw [e]
  · exact Sequencer.rsmFinish_opState s.seq
  · rw [Sequencer.rsmExit_eq]; rfl
  · rw [Sequencer.rsmExit_eq]; rfl

/-- An attempt at a command leaves `op_state` or ends the operation. -/
theorem attemptCommand_opState {s : State} (hf : s.fault = none) (i : Instr) (m : CommandMeaning) :
    (s.attemptCommand i m).seq.opState = s.seq.opState ∨ (s.attemptCommand i m).seq.opState = .idle := by
  obtain ⟨_, e⟩ | ⟨_, _, e⟩ | ⟨_, _, e⟩ | ⟨_, _, e⟩ := attemptCommand_cases (i := i) (m := m) hf <;> rw [e]
  · exact .inl rfl
  · exact .inl rfl
  · exact .inr rfl
  · exact .inl rfl

/-- An attempt at a command without a reply starts no read. -/
theorem attemptCommand_rsmState {s : State} (hf : s.fault = none) (i : Instr) {m : CommandMeaning}
    (hm : m.reply = .none) : (s.attemptCommand i m).seq.rsmState = s.seq.rsmState := by
  obtain ⟨_, e⟩ | ⟨_, _, e⟩ | ⟨_, _, e⟩ | ⟨_, hreply, _⟩ := attemptCommand_cases (i := i) (m := m) hf
  · rw [e]
  · rw [e]; rfl
  · rw [e]; rfl
  · exact absurd hm hreply

/-- Outside a read, the first try and the retry attempt the command, or the first try meets a closed transport. -/
theorem operateStep_of_unread {s : State} (hr : s.seq.rsmState = .idle)
    (ho : s.seq.opState = .firstTry ∨ s.seq.opState = .retry) (i : Instr) (m : CommandMeaning) :
    (∃ u : State, u.fault = s.fault ∧ u.seq.rsmState = .idle ∧ u.seq.opState = s.seq.opState ∧
      s.operateStep i m = u.attemptCommand i m) ∨
    ((s.operateStep i m).seq.rsmState = .idle ∧ (s.operateStep i m).seq.opState = .idle) := by
  obtain ho | ho := ho
  · rw [operateStep_of_start hr (.inr ho)]
    by_cases hopen : s.transportOpen = true
    · exact .inl ⟨s.started i, rfl, hr, ho.symm, firstTry_of_open hopen i m⟩
    · simp only [State.firstTry, hopen]
      exact .inr ⟨rfl, rfl⟩
  · exact .inl ⟨s, rfl, hr, rfl, operateStep_of_retry hr ho i m⟩

/-- Outside a read, the first try and the retry do not enter the resynchronisation. -/
theorem operateStep_unread_opState {s : State} (hf : s.fault = none) (hr : s.seq.rsmState = .idle)
    (ho : s.seq.opState = .firstTry ∨ s.seq.opState = .retry) (i : Instr) (m : CommandMeaning) :
    (s.operateStep i m).seq.opState ≠ .resync := by
  obtain ⟨u, hfu, -, hou, e⟩ | ⟨-, ended⟩ := operateStep_of_unread hr ho i m
  · rw [e]
    obtain kept | ended := attemptCommand_opState (hfu.trans hf) i m
    · rw [kept, hou]
      obtain ho | ho := ho <;> simp [ho]
    · simp [ended]
  · simp [ended]

/-- Settles O24: the timeout of the first try enters the resynchronisation; a read's step keeps `op_state`, a read that
ends otherwise ends the operation, and an attempt at the command leaves `op_state` or ends the operation. -/
theorem firstTimeoutStartsResync : Obligations.FirstTimeoutStartsResync := by
  intro i s hf ho
  refine ⟨fun hr ho => exec_of_firstTimeout hf hr ho i, fun hreply hr => ?_, fun t ht hres => ?_⟩
  · refine ⟨_, exec_of_noFault hf, ?_, operateStep_unread_opState hf hr ho i _⟩
    obtain ⟨u, hfu, hru, -, e⟩ | ⟨rested, -⟩ := operateStep_of_unread hr ho i (specMeaning s.cfg i)
    · rw [e, attemptCommand_rsmState (hfu.trans hf) i (hasReply_eq_false_iff.1 hreply), hru]
    · exact rested
  · obtain ⟨-, e⟩ := exec_next ht
    cases hr : s.seq.rsmState
    case idle => exact absurd (e ▸ hres) (operateStep_unread_opState hf hr ho i _)
    case accumulating =>
      rw [e, operateStep_of_accumulating hr, rsmStep_opState] at hres
      simp [hres] at ho
    case satisfied =>
      have inTry : s.endExchange.seq.opState = .firstTry ∨ s.endExchange.seq.opState = .retry := by simpa using ho
      have satisfied : s.endExchange.seq.resp.ok = true := by rw [endExchange_seq, rsmFinish_of_satisfied hr]
      rw [e, operateStep_of_satisfied hr, afterRead_of_ok inTry satisfied] at hres
      cases hres
    case timedOut =>
      refine ⟨rfl, ho.resolve_right fun retry => ?_⟩
      rw [retryTimeoutReported i s hf hr retry] at ht
      cases ht
      cases hres

/-! ## The supervisor's moves -/

theorem operateStep_of_resync {s : State} (hr : s.seq.rsmState = .idle) (ho : s.seq.opState = .resync) (i : Instr)
    (m : CommandMeaning) : s.operateStep i m = s.superviseCommand m.failure := by
  simp only [State.operateStep, hr, ho]

/-- A command's meaning outside a read of its resynchronisation is the supervisor's move. -/
theorem exec_of_resync {s : State} (hf : s.fault = none) (hr : s.seq.rsmState = .idle) (ho : s.seq.opState = .resync)
    (i : Instr) : exec i s = .next (s.superviseCommand (specDefault i)) := by
  rw [exec_of_noFault hf, operateStep_of_resync hr ho]
  rfl

/-- With the supervisor and the read at rest, `raise` only ends the operation. -/
theorem raise_of_rested {s : State} (hs : s.seq.supState = .idle) (hr : s.seq.rsmState = .idle) (v : ResultValue)
    (e : ErrorCode) : s.raise v e = s.finish v e := by
  rw [State.raise, ← hs, ← hr]

theorem resyncStart_of_valid {s : State} {p : Byte × Byte × Byte} (hp : encodePassword s.curPw = some p)
    (v : ResultValue) :
    s.resyncStart v = { s with seq := { s.seq with attemptCnt := 1, syncPw := p, supState := .attempt } } := by
  simp only [State.resyncStart, hp, Sequencer.beginAttempt]

theorem resyncStart_of_invalid {s : State} (hp : encodePassword s.curPw = none) (v : ResultValue) :
    s.resyncStart v = ({ s with seq := { s.seq with attemptCnt := 0 } } : State).raise v .invalidPassword := by
  simp only [State.resyncStart, hp]

/-- Settles O31: at its start the supervisor encodes the password, or ends the operation with the machines at rest. -/
theorem resyncStartsOrRefuses : Obligations.ResyncStartsOrRefuses := by
  intro i s hf hr ho hs
  rw [exec_of_resync hf hr ho, State.superviseCommand, hs]
  refine ⟨fun p hp => congrArg _ (resyncStart_of_valid hp _), fun hp => congrArg _ ?_⟩
  have cleared : ({ s with seq := { s.seq with attemptCnt := 0 } } : State).seq.supState = .idle := hs
  rw [resyncStart_of_invalid hp, raise_of_rested cleared hr]
  rfl

theorem roundTrip_started {s : State} (hf : s.fault = none) (hg : s.gateHeld = false) (hw : s.now.writeFault = none) :
    s.roundTrip = s.exchangeStarted s.seq.verification 1 s.cfg.timeoutDefaultMs := by
  rw [State.roundTrip, if_neg (by simp [hg]), beginExchange_reply hf hw (by simp)]
  rfl

/-- Settles O32: a round trip starts the exchange of the verification. -/
theorem attemptVerifiesCurrentPassword : Obligations.AttemptVerifiesCurrentPassword := by
  intro i s a b c hf hr ho hs hg hw hpw
  rw [exec_of_noFault hf, operateStep_of_attempt hr ho hs, roundTrip_started hf hg hw, verification_of hpw]
  rfl

/-- The end of a round trip with a Response (R238). -/
theorem roundTripEnd_of_satisfied {s : State} (hr : s.seq.rsmState = .satisfied) :
    s.endExchange.roundTripEnd = { s with
      gateHeld := false
      seq := { s.seq with
        resp := { bytes := s.seq.acc, ok := true }, acc := [], rsmState := .idle
        authValid := true, authResult := decodeBool s.cfg (s.seq.acc.getD 0 0), supState := .synced } } := by
  rw [State.endExchange, rsmFinish_of_satisfied hr]
  rfl

/-- The end of the tenth round trip without a Response (R239, R241). -/
theorem roundTripEnd_of_tenthTimeout {s : State} (hr : s.seq.rsmState = .timedOut) (hc : s.seq.attemptCnt = 10) :
    s.endExchange.roundTripEnd = { s with
      gateHeld := false
      seq := { s.seq with
        resp := { bytes := [], ok := false }, acc := [], rsmState := .idle
        authValid := false, authResult := false, supState := .failed } } := by
  rw [endExchange_of_timedOut hr]
  simp only [State.roundTripEnd, hc, Config.syncMaxAttempts, Bool.false_eq_true, if_false, if_true,
    Sequencer.clearAuth]

/-- The end of an earlier round trip without a Response (R240). -/
theorem roundTripEnd_of_earlierTimeout {s : State} (hr : s.seq.rsmState = .timedOut) (hc : s.seq.attemptCnt ≠ 10) :
    s.endExchange.roundTripEnd = { s with
      gateHeld := false
      seq := { s.seq with
        resp := { bytes := [], ok := false }, acc := [], rsmState := .idle, supState := .sleeping } } := by
  rw [endExchange_of_timedOut hr]
  simp only [State.roundTripEnd, hc, Config.syncMaxAttempts, Bool.false_eq_true, if_false]

theorem afterRead_of_resync {s : State} (ho : s.seq.opState = .resync) (m : CommandMeaning) :
    s.afterRead m = s.roundTripEnd := by
  simp only [State.afterRead, ho]

/-- A read of a resynchronisation that has ended is a round trip's, whatever the command. -/
theorem operateStep_of_roundTripEnd {s : State} (hr : s.seq.rsmState = .satisfied ∨ s.seq.rsmState = .timedOut)
    (ho : s.seq.opState = .resync) (i : Instr) (m : CommandMeaning) :
    s.operateStep i m = s.endExchange.roundTripEnd := by
  have supervised : s.endExchange.seq.opState = .resync := by simpa using ho
  obtain hr | hr := hr
  · rw [operateStep_of_satisfied hr, afterRead_of_resync supervised]
  · rw [operateStep_of_timedOut hr, afterRead_of_resync supervised]

/-- Settles O33: the three ends of a round trip. -/
theorem attemptOutcome : Obligations.AttemptOutcome := by
  intro i s hf ho
  rw [exec_of_noFault hf]
  refine ⟨fun hr => ?_, fun hr hc => ?_, fun hr hc => ?_⟩
  · rw [operateStep_of_roundTripEnd (.inl hr) ho, roundTripEnd_of_satisfied hr]
  · rw [operateStep_of_roundTripEnd (.inr hr) ho, roundTripEnd_of_tenthTimeout hr hc]
  · rw [operateStep_of_roundTripEnd (.inr hr) ho, roundTripEnd_of_earlierTimeout hr hc]

/-- Settles O34: the supervisor's moves between two exchanges. -/
theorem supervisorGoesOn : Obligations.SupervisorGoesOn := by
  intro i s hf hr ho
  rw [exec_of_resync hf hr ho, State.superviseCommand]
  refine ⟨fun hs => ?_, fun hs => ?_, fun hs => ?_⟩
  · simp only [hs]
    rfl
  · simp only [hs]
  · simp only [hs, State.raise, ← hr]
    rfl

/-! ## The bare resynchronisation -/

theorem syncStart_of_open {s : State} (h : s.transportOpen = true) :
    s.syncStart = ({ s with seq := { s.seq with opState := .resync } } : State).resyncStart (.bool false) := by
  simp only [State.syncStart, h, if_true]

theorem syncStart_of_closed {s : State} (h : s.transportOpen = false) :
    s.syncStart = ({ s with seq := { s.seq with opState := .resync } } : State).raise (.bool false) .notOpen := by
  simp only [State.syncStart, h, Bool.false_eq_true, if_false]

theorem syncStep_of_resync {s : State} (hr : s.seq.rsmState = .idle) (ho : s.seq.opState = .resync) :
    s.syncStep = s.superviseBare := by
  simp only [State.syncStep, hr, ho]

theorem syncStep_of_readEnd {s : State} (hr : s.seq.rsmState = .satisfied ∨ s.seq.rsmState = .timedOut) :
    s.syncStep = s.endExchange.roundTripEnd := by
  obtain hr | hr := hr <;> simp only [State.syncStep, hr]

/-- In a read, at its end, at a sleep and at an attempt, a bare resynchronisation steps as a command's does. -/
theorem syncStep_eq_operateStep {s : State} (ho : s.seq.opState = .resync)
    (h : s.seq.rsmState ≠ .idle ∨ s.seq.supState = .sleeping ∨ s.seq.supState = .attempt) (i : Instr)
    (m : CommandMeaning) : s.syncStep = s.operateStep i m := by
  cases hr : s.seq.rsmState
  case accumulating => rw [syncStep_of_accumulating hr, operateStep_of_accumulating hr]
  case satisfied => rw [syncStep_of_readEnd (.inl hr), operateStep_of_roundTripEnd (.inl hr) ho]
  case timedOut => rw [syncStep_of_readEnd (.inr hr), operateStep_of_roundTripEnd (.inr hr) ho]
  case idle =>
    rw [syncStep_of_resync hr ho, operateStep_of_resync hr ho]
    obtain hs | hs := h.resolve_left (not_not_intro hr) <;> simp only [State.superviseBare, State.superviseCommand, hs]

/-- Once synced, the boolean latched is what a bare resynchronisation reports. -/
theorem superviseBare_of_synced {s : State} (hs : s.seq.supState = .synced) :
    s.superviseBare =
      ({ s with seq := { s.seq with supState := .idle } } : State).finish (.bool s.seq.authResult) .none := by
  simp only [State.superviseBare, hs]

/-- Once failed, with no read in progress, it ends with `Bool(false)` and `SyncFailed`. -/
theorem superviseBare_of_failed {s : State} (hr : s.seq.rsmState = .idle) (hs : s.seq.supState = .failed) :
    s.superviseBare = ({ s with seq := { s.seq with supState := .idle } } : State).finish (.bool false) .syncFailed := by
  simp only [State.superviseBare, hs, State.raise, ← hr]

/-- `Synchronize` names no command at any time of its operation (R242). -/
theorem operation_of_synchronize {s : State} (hq : s.seq.req = .synchronize) : s.operation = .next s.syncStep := by
  have noCommand : s.currentCommand = .ok none := by
    simp only [State.currentCommand, hq, resolve, if_true, ite_self]
  simp only [State.operation, noCommand]

theorem step_request_synchronize {s : State} (hf : s.fault = none) (hb : s.seq.busy = false) (hc : s.call = .idle)
    (ho : s.openingElsewhere = false) (hm : s.nextInput.move = .request .synchronize) :
    step s = .next (s.sample.accept .synchronize).syncStep := by
  rw [step_request hf hb hc ho hm, operation_of_synchronize rfl, Plan.answer_next]

theorem step_synchronizing {s : State} (hf : s.fault = none) (hb : s.seq.busy = true) (hq : s.seq.req = .synchronize)
    (hp : s.seq.cancelPending = false) (hcan : s.cfg.hasCancel = false) (hr : s.nextInput.move ≠ .reset)
    (ht : ∀ k, s.nextInput.move ≠ .turn k) : step s = .next s.sample.syncStep := by
  rw [step_of_thread hf hr ht, threadStep_of_busy (s := s.sample) hb hp hcan,
    operation_of_synchronize (s := s.sample) hq, Plan.answer_next]

/-- The first step of an accepted `Synchronize`. -/
theorem syncStep_accept {s : State} (hr : s.seq.rsmState = .idle) (r : Request) :
    (s.accept r).syncStep = (s.accept r).syncStart := by
  simp only [State.syncStep, accept_seq, hr]

/-- Settles O35: `Synchronize` runs the bare resynchronisation, whose start and ends are its own and whose other steps
are those of a command's resynchronisation. -/
theorem synchronizeReports : Obligations.SynchronizeReports := by
  refine ⟨fun s hf hb hr hc ho hm => ?_, fun s hf hb hq hp hcan hm ht => ?_⟩
  · have hsampled : s.sample.seq.rsmState = .idle := hr
    have started := step_request_synchronize hf hb hc ho hm
    refine ⟨started, ?_⟩
    rw [started, syncStep_accept hsampled]
    refine ⟨fun closed => congrArg _ ?_, fun opened hpw => congrArg _ ?_, fun p opened hpw => congrArg _ ?_⟩
    · rw [syncStart_of_closed (s := s.sample.accept .synchronize) closed, State.raise, ← hr]
      rfl
    · rw [syncStart_of_open (s := s.sample.accept .synchronize) opened,
        resyncStart_of_invalid (s := { s.sample.accept .synchronize with seq := _ }) hpw, State.raise, ← hr]
      rfl
    · rw [syncStart_of_open (s := s.sample.accept .synchronize) opened,
        resyncStart_of_valid (s := { s.sample.accept .synchronize with seq := _ }) hpw]
      rfl
  · have unfaulted : s.sample.fault = none := hf
    have stepped := step_synchronizing hf hb hq hp hcan hm ht
    have asCommand (ho : s.seq.opState = .resync)
        (h : s.seq.rsmState ≠ .idle ∨ s.seq.supState = .sleeping ∨ s.seq.supState = .attempt) (i : Instr) :
        step s = exec i s.sample := by
      rw [stepped, exec_of_noFault unfaulted, syncStep_eq_operateStep (s := s.sample) ho h]
    have ending (ho : s.seq.opState = .resync) (hr : s.seq.rsmState = .idle) :
        step s = .next s.sample.superviseBare := by
      rw [stepped, syncStep_of_resync (s := s.sample) hr ho]
    refine ⟨stepped, asCommand, fun a b c ho hr hs hpw hg hw => ?_, fun ho hr => ?_, fun ho hr hc => ?_,
      fun ho hr hc => ?_, fun ho hr hs => ?_, fun ho hr hs => ?_, fun ho hr hs => ?_⟩
    · rw [asCommand ho (.inr (.inr hs)) s.seq.cmd]
      exact attemptVerifiesCurrentPassword _ s.sample a b c unfaulted hr ho hs hg hw hpw
    · rw [asCommand ho (.inl (by simp [hr])) s.seq.cmd]
      exact (attemptOutcome _ s.sample unfaulted ho).1 hr
    · rw [asCommand ho (.inl (by simp [hr])) s.seq.cmd]
      exact (attemptOutcome _ s.sample unfaulted ho).2.1 hr hc
    · rw [asCommand ho (.inl (by simp [hr])) s.seq.cmd]
      exact (attemptOutcome _ s.sample unfaulted ho).2.2 hr hc
    · rw [asCommand ho (.inr (.inl hs)) s.seq.cmd]
      exact (supervisorGoesOn _ s.sample unfaulted hr ho).1 hs
    · rw [ending ho hr, superviseBare_of_synced (s := s.sample) hs]
      rfl
    · rw [ending ho hr, superviseBare_of_failed (s := s.sample) hr hs]
      rfl

/-! ## A query begins -/

/-- An attempt at a command with a reply, when the gate is free and the write succeeds, starts its exchange. -/
theorem attemptCommand_started {i : Instr} {m : CommandMeaning} {s : State} (hf : s.fault = none)
    (hg : s.gateHeld = false) (hw : s.now.writeFault = none) (hm : m.reply ≠ .none) :
    s.attemptCommand i m = s.exchangeStarted i m.reply.expected m.timeoutMs := by
  rw [← beginExchange_reply hf hw hm]
  cases hr : m.reply
  case none => exact absurd hr hm
  all_goals simp only [State.attemptCommand, hg, hr, Bool.false_eq_true, if_false]

/-- The state after the first step of the operation of `i`, a command with a reply: its request accepted and its exchange
started (R41, R231, R296). -/
def State.queried (i : Instr) (s : State) : State :=
  ((s.accept (requestOf i)).started i).exchangeStarted i (specReply s.cfg i).expected (specTimeout s.cfg i)

/-- The request that stands for a command runs its meaning in the state that has accepted it. -/
theorem step_requestOf {s : State} {i : Instr} (hf : s.fault = none) (hb : s.seq.busy = false)
    (hr : s.seq.rsmState = .idle) (hc : s.call = .idle) (ho : s.openingElsewhere = false) (hwf : i.wf = true)
    (hm : s.nextInput.move = .request (requestOf i)) : step s = exec i (s.sample.accept (requestOf i)) := by
  have current : (s.sample.accept (requestOf i)).currentCommand = .ok (some i) :=
    (if_pos ⟨rfl, hr⟩).trans (resolve_requestOf hwf)
  rw [step_request hf hb hc ho hm, operation_of_command current, Plan.answer_run]

/-- A first try of a command with a reply starts its exchange. -/
theorem exec_of_queryStart {s : State} {i : Instr} (hf : s.fault = none) (hr : s.seq.rsmState = .idle)
    (ho : s.seq.opState = .firstTry) (hopen : s.transportOpen = true) (hg : s.gateHeld = false)
    (hw : s.now.writeFault = none) (hreply : specReply s.cfg i ≠ .none) :
    exec i s = .next ((s.started i).exchangeStarted i (specReply s.cfg i).expected (specTimeout s.cfg i)) := by
  have free : (s.started i).gateHeld = false := hg
  rw [exec_of_noFault hf, operateStep_of_start hr (.inr ho), firstTry_of_open hopen,
    attemptCommand_started (s := s.started i) hf free hw hreply]
  rfl

/-- An idle block that can start a query in the step that accepts it. -/
structure State.Ready (s : State) : Prop where
  noFault : s.fault = none
  idle : s.seq.busy = false
  resting : s.seq.rsmState = .idle
  noCall : s.call = .idle
  alone : s.openingElsewhere = false
  transport : s.transportOpen = true
  gateFree : s.gateHeld = false
  unread : s.rx = []

/-- It starts the query it is asked for. -/
theorem State.Ready.step_query {s : State} {i : Instr} {later : List Input} (h : s.Ready) (hwf : i.wf = true)
    (hreply : specReply s.cfg i ≠ .none)
    (hin : s.inputs = { Input.quiet with move := .request (requestOf i) } :: later) :
    step s = .next ((s.queried i).withInputs { Input.quiet with move := .request (requestOf i) } later
      (s.inputCount + 1)) := by
  have asked : s.nextInput = { Input.quiet with move := .request (requestOf i) } := by rw [State.nextInput, hin]
  have sampled : s.sample = s.withInputs { Input.quiet with move := .request (requestOf i) } later
      (s.inputCount + 1) := by
    simp only [State.sample, State.withInputs, asked, hin, h.unread, List.tail_cons, Input.quiet, List.append_nil]
  rw [step_requestOf h.noFault h.idle h.resting h.noCall h.alone hwf (by rw [asked]), sampled]
  exact exec_of_queryStart (s := (s.withInputs _ later (s.inputCount + 1)).accept (requestOf i)) h.noFault h.resting rfl
    h.transport h.gateFree rfl hreply

/-! ## An operation in progress -/

/-- The operation of command `i` is in progress: no fault, no cancel and no cancel port, and no byte received that is
not yet read; a write would succeed. -/
structure State.Operating (i : Instr) (s : State) : Prop where
  noFault : s.fault = none
  busy : s.seq.busy = true
  noCancel : s.seq.cancelPending = false
  noPort : s.cfg.hasCancel = false
  command : s.seq.cmd = i
  named : s.seq.req ≠ .synchronize
  unread : s.rx = []
  writable : s.now.writeFault = none

theorem requestOf_ne_synchronize {i : Instr} (hwf : i.wf = true) : requestOf i ≠ .synchronize := fun h => by
  have resolved := resolve_requestOf hwf
  rw [h] at resolved
  cases resolved

/-- A read that has just started under an operation in progress. -/
structure State.ReadStarted (i : Instr) (s : State) : Prop extends s.Operating i where
  reading : s.seq.rsmState = .accumulating
  empty : s.seq.acc = []
  clockReset : s.seq.idleMs = 0

theorem State.Ready.queried {s : State} {i : Instr} (h : s.Ready) (hp : s.seq.cancelPending = false)
    (hcan : s.cfg.hasCancel = false) (hw : s.now.writeFault = none) (hwf : i.wf = true) :
    (s.queried i).ReadStarted i where
  noFault := h.noFault
  busy := rfl
  noCancel := hp
  noPort := hcan
  command := rfl
  named := requestOf_ne_synchronize hwf
  unread := h.unread
  writable := hw
  reading := rfl
  empty := rfl
  clockReset := rfl

/-- With nothing unread, sampling an input leaves in `rx` what has just arrived. -/
theorem sample_withInputs {s : State} (hx : s.rx = []) (n d : Input) (l : List Input) (c : Nat) :
    (s.withInputs n (d :: l) c).sample = ({ s with rx := d.arr } : State).withInputs d l (c + 1) := by
  have received : s.rx ++ d.arr = d.arr := by rw [hx, List.nil_append]
  simp only [State.sample, State.nextInput, State.withInputs, List.tail_cons, received]

/-- Past its first step the operation goes on with the command's meaning, on what has just arrived. -/
theorem State.Operating.step_arrival {s : State} {i : Instr} (h : s.Operating i)
    (begun : ¬ (s.seq.opState = .firstTry ∧ s.seq.rsmState = .idle)) {d : Input} (hm : d.move = .nothing) (n : Input)
    (l : List Input) (c : Nat) : step (s.withInputs n (d :: l) c) =
      exec i (({ s with rx := d.arr } : State).withInputs d l (c + 1)) := by
  have moves : (s.withInputs n (d :: l) c).nextInput.move = .nothing := hm
  rw [stepContinuesCommand (s.withInputs n (d :: l) c) h.noFault h.busy h.noCancel h.noPort (by simp [moves])
    (by simp [moves]) h.named begun, sample_withInputs h.unread]
  exact congrArg (exec · _) h.command

/-- A command's meaning reads of the input no more than whether a write fails. -/
theorem exec_withInputs {s t : State} {i : Instr} (he : exec i s = .next t) {n : Input}
    (hw : n.writeFault = s.now.writeFault) (l : List Input) (c : Nat) :
    exec i (s.withInputs n l c) = .next (t.withInputs n l c) := by
  obtain ⟨hf, rfl⟩ := exec_next he
  have unfaulted : (s.withInputs n l c).fault = none := hf
  rw [exec_of_noFault unfaulted, ← operateStep_withInputs i _ hw]
  rfl

/-- When nothing arrives a step is that of the command's meaning. -/
theorem State.Operating.step_quiet {s t : State} {i : Instr} (h : s.Operating i)
    (begun : ¬ (s.seq.opState = .firstTry ∧ s.seq.rsmState = .idle)) (he : exec i s = .next t) (n : Input)
    (l : List Input) (c : Nat) :
    step (s.withInputs n (Input.quiet :: l) c) = .next (t.withInputs Input.quiet l (c + 1)) := by
  have silent : ({ s with rx := Input.quiet.arr } : State) = s := by
    rw [show Input.quiet.arr = s.rx from h.unread.symm]
  rw [h.step_arrival begun rfl, silent, exec_withInputs he h.writable.symm]

/-! ## A prompt reply -/

/-- The whole reply has arrived in the read in progress. -/
def State.filled (reply : Bytes) (s : State) : State :=
  { s with seq := { s.seq with acc := reply, rsmState := .satisfied } }

/-- A bounded read that has just started is satisfied by the arrival of its bytes (R203, R205). -/
theorem State.ReadStarted.step_fill {s : State} {i : Instr} (h : s.ReadStarted i) (hcap : s.cfg.respCap = none)
    {reply : Bytes} (hn : 0 < s.seq.rsmExpected) (hlen : s.seq.rsmExpected ≤ reply.length) (n : Input)
    (l : List Input) (c : Nat) : step (s.withInputs n ({ Input.quiet with arr := reply } :: l) c) =
      .next ((s.filled reply).withInputs { Input.quiet with arr := reply } l (c + 1)) := by
  have arrived : reply ≠ [] := by rintro rfl; exact absurd (hn.trans_le hlen) (by simp)
  have noCap : ∀ cap, s.cfg.respCap = some cap → s.seq.acc.length + reply.length ≤ cap := by simp [hcap]
  have read := readBranch i (({ s with rx := reply } : State).withInputs { Input.quiet with arr := reply } l (c + 1))
    h.noFault h.reading arrived noCap
  have appended : s.seq.acc ++ reply = reply := by rw [h.empty, List.nil_append]
  rw [h.step_arrival (fun begun => nomatch h.reading.symm.trans begun.2) rfl n l c, read]
  simp only [State.withInputs, State.filled, appended, hn, hlen, and_self, if_true, h.unread, h.clockReset]

/-- Settles O36: the request starts the query, the reply fills its read, and the read's end completes it. What was
sampled before the request plays no part, so it is taken to be a quiet input. -/
theorem promptReplyCompletesInThreeSteps : Obligations.PromptReplyCompletesInThreeSteps := by
  intro s i n reply later hf hb hr hc ho hopen hg hx hcap hcan hp hwf hspec hn hlen hin
  have hreply : specReply s.cfg i ≠ .none := by simp [hspec]
  have ready : s.Ready := ⟨hf, hb, hr, hc, ho, hopen, hg, hx⟩
  let asked := (s.withInputs Input.quiet [] 0).queried i
  have started : asked.ReadStarted i := State.Ready.queried { ready with } hp hcan rfl hwf
  have filled : (asked.filled reply).Operating i := { started.toOperating with }
  have expected : asked.seq.rsmExpected = n := congrArg ReplyKind.expected hspec
  have first := ready.step_query hwf hreply hin
  have second := started.step_fill (reply := reply) hcap (by omega) (by omega)
    { Input.quiet with move := .request (requestOf i) } (Input.quiet :: later) (s.inputCount + 1)
  have third := filled.step_quiet (fun begun => nomatch begun.2)
    (queryCompletes i (asked.filled reply) (hasReply_eq_true_iff.2 hreply) hf rfl (.inl rfl))
    { Input.quiet with arr := reply } later (s.inputCount + 1 + 1)
  exact ⟨_, (run_step (M := core) 2 s first).trans ((run_step 1 _ second).trans (run_step 0 _ third)),
    rfl, rfl, rfl, rfl, hx, rfl, rfl, rfl, rfl⟩

/-! ## Runs on a silent line -/

/-- On a silent line `k` steps of the machine take `s` to `t`, whatever was sampled before and is listed after them. -/
def SilentRun (k : Nat) (s t : State) : Prop :=
  ∀ now later count, ∃ now' count',
    Host.Core.run Sys2Proof.core k (s.withInputs now (List.replicate k Input.quiet ++ later) count) =
      .next (t.withInputs now' later count')

namespace SilentRun

variable {i : Instr} {s t u : State} {j k : Nat}

theorem refl (s : State) : SilentRun 0 s s := fun now _ count => ⟨now, count, rfl⟩

theorem trans (h : SilentRun j s t) (h' : SilentRun k t u) : SilentRun (j + k) s u := by
  intro now later count
  obtain ⟨now', count', first⟩ := h now (List.replicate k Input.quiet ++ later) count
  obtain ⟨now'', count'', second⟩ := h' now' later count'
  rw [List.replicate_add, List.append_assoc, run_add j k _ first]
  exact ⟨now'', count'', second⟩

/-- One step of an operation in progress, given by its command's meaning. -/
theorem of_exec (h : s.Operating i) (begun : ¬ (s.seq.opState = .firstTry ∧ s.seq.rsmState = .idle))
    (he : exec i s = .next t) : SilentRun 1 s t := fun now later count =>
  ⟨_, _, run_step (M := Sys2Proof.core) 0 _ (h.step_quiet begun he now later count)⟩

end SilentRun

/-- An operation stays in progress while its read polls. -/
theorem State.Operating.polled {s : State} {i : Instr} (h : s.Operating i) (k : Nat) (r : RsmState) :
    (s.polled k r).Operating i :=
  { h with }

/-- On a silent line a read that has just started times out after `K(t)` steps of the machine (R211). -/
theorem State.ReadStarted.timesOut {s : State} {i : Instr} (h : s.ReadStarted i) :
    SilentRun (pollsOf s.seq.rsmTimeoutMs) s (s.polled (pollsOf s.seq.rsmTimeoutMs) .timedOut) := by
  have polls (k : Nat) (hk : k ≤ pollsOf s.seq.rsmTimeoutMs) :
      State.rsmStep^[k] s = s.polled k (if k = pollsOf s.seq.rsmTimeoutMs then .timedOut else .accumulating) :=
    silentReadTimesOut s k h.reading h.empty h.clockReset h.unread hk
  have runs (k : Nat) (hk : k ≤ pollsOf s.seq.rsmTimeoutMs) : SilentRun k s (State.rsmStep^[k] s) := by
    induction k with
    | zero => exact SilentRun.refl s
    | succ k ih =>
      have earlier : State.rsmStep^[k] s = s.polled k .accumulating := by
        rw [polls k (Nat.le_of_lt hk), if_neg (Nat.ne_of_lt hk)]
      have once : SilentRun 1 (s.polled k .accumulating) (s.polled k .accumulating).rsmStep :=
        SilentRun.of_exec (h.toOperating.polled k _) (fun begun => nomatch begun.2)
          (exec_of_accumulating (s := s.polled k .accumulating) h.noFault rfl i)
      rw [Function.iterate_succ_apply', earlier]
      exact (earlier ▸ ih (Nat.le_of_lt hk)).trans once
  have run := runs _ le_rfl
  rwa [polls _ le_rfl, if_pos rfl] at run

/-! ## The supervisor on a silent line -/

/-- The operation of command `i` is at the supervisor's `n`-th attempt, with the bytes `(a, b, c)` of the password. -/
structure State.AttemptDue (i : Instr) (a b c : Byte) (n : Nat) (s : State) : Prop extends s.Operating i where
  resyncing : s.seq.opState = .resync
  due : s.seq.supState = .attempt
  resting : s.seq.rsmState = .idle
  gateFree : s.gateHeld = false
  payload : s.seq.syncPw = (a, b, c)
  counted : s.seq.attemptCnt = n

section
variable {i : Instr} {a b c : Byte} {n : Nat} {s : State}

/-- The read that has just started has timed out, and its exchange has ended. -/
def State.unanswered (s : State) : State := (s.polled (pollsOf s.seq.rsmTimeoutMs) .timedOut).endExchange

/-- The first try's read was the one that timed out, and the supervisor is to start. -/
def State.firstTryLost (s : State) : State :=
  { s.unanswered with seq := { s.unanswered.seq with opState := .resync } }

/-- On a silent line the first try ends at the supervisor's first attempt (R230, R236), with nothing written and the read's
polls slept. -/
theorem State.ReadStarted.firstTryLost (h : s.ReadStarted i) (ho : s.seq.opState = .firstTry)
    (hs : s.seq.supState = .idle) (hp : encodePassword s.curPw = some (a, b, c)) :
    ∃ t, SilentRun (pollsOf s.seq.rsmTimeoutMs + 2) s t ∧ t.AttemptDue i a b c 1 ∧ t.cfg = s.cfg ∧ t.tx = s.tx ∧
      t.seq.sleptMs = s.seq.sleptMs + 10 * pollsOf s.seq.rsmTimeoutMs := by
  have lost : s.firstTryLost.Operating i := { h.toOperating with busy := rfl }
  have ended : SilentRun 1 _ s.firstTryLost :=
    .of_exec (h.toOperating.polled _ .timedOut) (fun begun => nomatch begun.2)
      (exec_of_firstTimeout (s := s.polled _ .timedOut) h.noFault rfl ho i)
  have starts := SilentRun.of_exec lost (fun begun => nomatch begun.1)
    ((resyncStartsOrRefuses i s.firstTryLost h.noFault rfl rfl hs).1 _ hp)
  refine ⟨_, h.timesOut.trans (ended.trans starts), ?_, rfl, rfl, rfl⟩
  exact
    { lost with
      resyncing := rfl
      due := rfl
      resting := rfl
      gateFree := rfl
      payload := rfl
      counted := rfl }

/-- The exchange of an attempt's verification has started. -/
def State.verifying (a b c : Byte) (s : State) : State :=
  s.exchangeStarted (.verifyPassword a b c) 1 s.cfg.timeoutDefaultMs

theorem State.AttemptDue.verifying (h : s.AttemptDue i a b c n) :
    SilentRun 1 s (s.verifying a b c) ∧ (s.verifying a b c).ReadStarted i :=
  ⟨.of_exec h.toOperating (fun begun => nomatch h.resyncing.symm.trans begun.1)
      (attemptVerifiesCurrentPassword i s a b c h.noFault h.resting h.resyncing h.due h.gateFree h.writable h.payload),
    { h.toOperating with
      reading := rfl
      empty := rfl
      clockReset := rfl }⟩

/-- The polls of an attempt's read. -/
def State.attemptPolls (s : State) : Nat := pollsOf s.cfg.timeoutDefaultMs

theorem attemptPolls_of_cfg {s t : State} (h : t.cfg = s.cfg) : t.attemptPolls = s.attemptPolls := by
  rw [State.attemptPolls, h, State.attemptPolls]

/-- An attempt's read timed out, and the supervisor is to sleep. -/
def State.attemptLost (a b c : Byte) (s : State) : State :=
  let ended := (s.verifying a b c).unanswered
  { ended with seq := { ended.seq with supState := .sleeping } }

/-- The last attempt's read timed out, and the supervisor has failed. -/
def State.lastAttemptLost (a b c : Byte) (s : State) : State :=
  let ended := (s.verifying a b c).unanswered
  { ended with seq := { ended.seq with authValid := false, authResult := false, supState := .failed } }

/-- An attempt before the tenth times out, and the next is due after the sleep (R240). -/
theorem State.AttemptDue.next (h : s.AttemptDue i a b c n) (hn : n ≠ 10) :
    ∃ t, SilentRun (1 + (s.attemptPolls + 2)) s t ∧ t.AttemptDue i a b c (n + 1) ∧ t.cfg = s.cfg ∧
      t.tx = s.tx ++ encode s.cfg (.verifyPassword a b c) ∧
      t.seq.sleptMs = s.seq.sleptMs + 10 * s.attemptPolls + 10 := by
  obtain ⟨asked, reading⟩ := h.verifying
  have lost : (s.attemptLost a b c).Operating i := { reading.toOperating with }
  have ended : SilentRun 1 _ (s.attemptLost a b c) :=
    .of_exec (reading.toOperating.polled _ .timedOut) (fun begun => nomatch begun.2)
      ((attemptOutcome i ((s.verifying a b c).polled _ .timedOut) h.noFault h.resyncing).2.2 rfl (h.counted ▸ hn))
  have goesOn := SilentRun.of_exec lost (fun begun => nomatch h.resyncing.symm.trans begun.1)
    ((supervisorGoesOn i (s.attemptLost a b c) h.noFault rfl h.resyncing).1 rfl)
  refine ⟨_, asked.trans (reading.timesOut.trans (ended.trans goesOn)), ?_, rfl, rfl, rfl⟩
  exact
    { lost with
      resyncing := h.resyncing
      due := rfl
      resting := rfl
      gateFree := rfl
      payload := h.payload
      counted := congrArg (· + 1) h.counted }

/-- In `t` the operation of command `i` has ended in `SyncFailed` on a silent line. -/
structure State.SyncFailed (i : Instr) (t : State) : Prop where
  result : t.seq.result = { value := specDefault i, ok := false, err := .syncFailed }
  idle : t.seq.busy = false
  gateFree : t.gateHeld = false
  unread : t.rx = []
  counted : t.seq.attemptCnt = 10
  invalid : t.seq.authValid = false
  cleared : t.seq.authResult = false

/-- The tenth attempt times out, and the operation ends in `SyncFailed` (R241, R235). -/
theorem State.AttemptDue.failed (h : s.AttemptDue i a b c 10) :
    ∃ t, SilentRun (1 + (s.attemptPolls + 2)) s t ∧ t.SyncFailed i ∧
      t.tx = s.tx ++ encode s.cfg (.verifyPassword a b c) ∧ t.seq.sleptMs = s.seq.sleptMs + 10 * s.attemptPolls := by
  obtain ⟨asked, reading⟩ := h.verifying
  have lost : (s.lastAttemptLost a b c).Operating i := { reading.toOperating with }
  have ended : SilentRun 1 _ (s.lastAttemptLost a b c) :=
    .of_exec (reading.toOperating.polled _ .timedOut) (fun begun => nomatch begun.2)
      ((attemptOutcome i ((s.verifying a b c).polled _ .timedOut) h.noFault h.resyncing).2.1 rfl h.counted)
  have stops := SilentRun.of_exec lost (fun begun => nomatch h.resyncing.symm.trans begun.1)
    ((supervisorGoesOn i (s.lastAttemptLost a b c) h.noFault rfl h.resyncing).2.2 rfl)
  refine ⟨_, asked.trans (reading.timesOut.trans (ended.trans stops)), ?_, rfl, rfl⟩
  exact
    { result := rfl
      idle := rfl
      gateFree := rfl
      unread := h.unread
      counted := h.counted
      invalid := rfl
      cleared := rfl }

/-- On a silent line `k` attempts have timed out since the first was due in `s`, and the next is due in `t`. -/
structure State.AttemptsLost (i : Instr) (a b c : Byte) (k : Nat) (s t : State) : Prop where
  run : SilentRun (k * (1 + (s.attemptPolls + 2))) s t
  next : t.AttemptDue i a b c (k + 1)
  cfg : t.cfg = s.cfg
  wrote : t.tx = s.tx ++ (List.replicate k (encode s.cfg (.verifyPassword a b c))).flatten
  slept : t.seq.sleptMs = s.seq.sleptMs + k * (10 * s.attemptPolls + 10)

theorem State.AttemptDue.attemptsLost (h : s.AttemptDue i a b c 1) (k : Nat) (hk : k ≤ 9) :
    ∃ t, s.AttemptsLost i a b c k t := by
  induction k with
  | zero => exact ⟨s, by simpa using SilentRun.refl s, h, rfl, by simp, by simp⟩
  | succ k ih =>
    obtain ⟨t, lost⟩ := ih (Nat.le_of_lt hk)
    obtain ⟨u, run, next, cfg, wrote, slept⟩ := lost.next.next (by omega)
    rw [attemptPolls_of_cfg lost.cfg] at run slept
    rw [lost.cfg] at cfg wrote
    exact ⟨u,
      { run := by rw [Nat.succ_mul]; exact lost.run.trans run
        next := next
        cfg := cfg
        wrote := by
          rw [wrote, lost.wrote, List.replicate_succ', List.flatten_append, List.flatten_singleton, List.append_assoc]
        slept := by rw [slept, lost.slept, Nat.succ_mul k, Nat.add_assoc, Nat.add_assoc] }⟩

/-- The query's read times out, then ten attempts of the supervisor, nine of them followed by a sleep (R244). -/
theorem State.ReadStarted.syncFailed (h : s.ReadStarted i) (ho : s.seq.opState = .firstTry)
    (hs : s.seq.supState = .idle) (hp : encodePassword s.curPw = some (a, b, c)) :
    ∃ k t, SilentRun k s t ∧ t.SyncFailed i ∧
      t.tx = s.tx ++ (List.replicate 10 (encode s.cfg (.verifyPassword a b c))).flatten ∧
      t.seq.sleptMs = s.seq.sleptMs + 10 * pollsOf s.seq.rsmTimeoutMs + 100 * s.attemptPolls + 90 := by
  obtain ⟨u, started, due, ucfg, utx, uslept⟩ := h.firstTryLost ho hs hp
  obtain ⟨v, lost⟩ := due.attemptsLost 9 le_rfl
  obtain ⟨t, last, failed, wrote, slept⟩ := lost.next.failed
  have vcfg : v.cfg = s.cfg := lost.cfg.trans ucfg
  refine ⟨_, t, started.trans (lost.run.trans last), failed, ?_, ?_⟩
  · rw [wrote, lost.wrote, utx, ucfg, vcfg, List.replicate_succ' (n := 9), List.flatten_append, List.flatten_singleton,
      List.append_assoc]
  · rw [slept, lost.slept, uslept, attemptPolls_of_cfg ucfg, attemptPolls_of_cfg vcfg]
    omega

end

/-- Settles O37: the request starts the query, and on the silent line the supervisor fails. What was sampled before
the request plays no part, so it is taken to be a quiet input. -/
theorem deadLinkEndsInSyncFailed : Obligations.DeadLinkEndsInSyncFailed := by
  intro s i a b c hf hb hr hs hc ho hopen hg hx hcan hp hwf hreply hpw
  have ready : s.Ready := ⟨hf, hb, hr, hc, ho, hopen, hg, hx⟩
  have asked : ((s.withInputs Input.quiet [] 0).queried i).ReadStarted i :=
    State.Ready.queried { ready with } hp hcan rfl hwf
  obtain ⟨k, t, silent, failed, wrote, slept⟩ := asked.syncFailed rfl hs hpw
  refine ⟨k, fun later => ?_⟩
  let request : Input := { Input.quiet with move := .request (requestOf i) }
  let rest : List Input := List.replicate k Input.quiet ++ later
  have first : step { s with inputs := request :: rest } = .next ((s.queried i).withInputs request rest _) :=
    State.Ready.step_query { ready with } hwf (hasReply_eq_true_iff.1 hreply) rfl
  obtain ⟨now, count, run⟩ := silent request later (s.inputCount + 1)
  exact ⟨t.withInputs now later count, (run_step (M := core) k _ first).trans run, rfl, failed.result, failed.idle,
    failed.gateFree, failed.unread, failed.counted, failed.invalid, failed.cleared, wrote, slept⟩

end Sys2Proof.Machine

end

section
/-! PROOFS of the family 44_session.md: what a public operation answers where the session's state alone decides it, the
requests by which its phases are entered, how `open` ends, when a new password is adopted, and the bound of
`setOperatingMode`. -/

namespace Sys2Proof.Machine

/-! ## Calls the session answers at once -/

/-- On a blank session every public operation but `open` and `close` is refused before it presents anything (R274). -/
theorem callStart_of_blank {s : State} {c : Call} (hs : s.session = Session.reset)
    (hopen : ∀ p pw, c ≠ .openSession p pw) (hclose : c ≠ .closeSession) :
    s.callStart c = s.returnCall .nothing .notOpen := by
  have closed : s.session.isOpen = false := by rw [hs]; rfl
  have unread : s.session.identity = none := by rw [hs]; rfl
  cases c
  case openSession p pw => exact absurd rfl (hopen p pw)
  case closeSession => exact absurd rfl hclose
  case changePassword => simp [State.callStart, State.callChangePassword, closed]
  case getBoardModel | getBoardVersion | getFirmwareVersion | getChannelCount =>
    simp [State.callStart, State.identityField, unread]
  all_goals simp [State.callStart, closed]

/-- `open` on an open session is refused (R261). -/
theorem callStart_open_of_open {s : State} (ho : s.session.isOpen = true) (port pw : Bytes) :
    s.callStart (.openSession port pw) = s.returnCall .nothing .alreadyOpen := by
  simp [State.callStart, State.callOpen, ho]

theorem callMove_of_alone {s : State} {c : Call} (ho : s.openingElsewhere = false)
    (hopen : ∀ p pw, c ≠ .openSession p pw) (hclose : c ≠ .closeSession) : s.callMove c = (s.callStart c).plan := by
  cases c
  case openSession p pw => exact absurd rfl (hopen p pw)
  case closeSession => exact absurd rfl hclose
  all_goals simp [State.callMove, ho]

theorem callMove_open {s : State} (h : s.session.isOpen = true ∨ s.quiet = true) (port pw : Bytes) :
    s.callMove (.openSession port pw) = (s.callStart (.openSession port pw)).plan :=
  if_pos (by simpa using h)

/-- A requester that runs no public operation runs none after a refusal. -/
theorem returned_of_idle {s : State} (hc : s.call = .idle) (r : CallReturn) :
    { s with call := .idle, ret := r } = { s with ret := r } := by rw [← hc]

/-- Settles O54: the call is refused before it presents anything. -/
theorem closedSessionPresentsNothing : Obligations.ClosedSessionPresentsNothing := by
  intro s c hf hb hc ho hm hs hopen hclose
  have refused : s.sample.callStart c = s.sample.returnCall .nothing .notOpen := callStart_of_blank hs hopen hclose
  have answered : step s = (s.sample.returnCall .nothing .notOpen).plan.answer := by
    rw [step_call hf hb hc hm, callMove_of_alone (s := s.sample) ho hopen hclose, refused]
  exact ⟨_, answered, rfl, rfl, rfl, rfl, rfl⟩

/-- Settles O55: the call is admitted beside any other, and refused. -/
theorem openTwiceFailsFast : Obligations.OpenTwiceFailsFast := by
  intro s port pw hf hb hc hm ho
  have refused : s.sample.callStart (.openSession port pw) = s.sample.returnCall .nothing .alreadyOpen :=
    callStart_open_of_open (s := s.sample) ho port pw
  rw [step_call hf hb hc hm, callMove_open (s := s.sample) (.inl ho), refused]
  exact congrArg Host.Outcome.next (returned_of_idle (s := s.sample) hc _)

/-! ## The phases of the public operations -/

/-- The request of a query operation (R265, R266, R269, R271, R272, R273). -/
def Query.request : Query → Request
  | .password => .getPassword
  | .relays | .relay _ => .getRelayStates
  | .mode => .getMode
  | .voltage => .getVoltage
  | .temperature => .getTemperatureAscii

/-- The first phase of a public operation and the request it presents, `cur` being the current password (R261, R263, R265 to
R273). -/
inductive PhaseBegins (cur : Bytes) : CallPhase → Request → Prop
  | openSync : PhaseBegins cur .openSync .synchronize
  | changeOld (new : Bytes) : PhaseBegins cur (.changeOld new) (.verifyPassword cur)
  | relaySet {n : Int} (h : 1 ≤ n ∧ n ≤ 8) (state : Bool) : PhaseBegins cur (.relaySet n state) (.setRelay n state)
  | allSet (state : Bool) : PhaseBegins cur (.allSet state) (.setAllRelays state)
  | modeRead (m : Mode) : PhaseBegins cur (.modeRead m 0) .getMode
  | query (q : Query) : PhaseBegins cur (.query q) q.request

/-- The phase that follows another one on the result `q`, and the request it presents (R261, R263, R267, R268, R270). -/
inductive PhaseFollows (q : OpResult) : CallPhase → CallPhase → Request → Prop
  | openBoard : PhaseFollows q .openSync .openBoard .getBoardId
  | openFirmware : PhaseFollows q .openBoard (.openFirmware q) .getFirmwareVersion
  | changeSet (new : Bytes) (hok : q.ok = true) (hno : q.value ≠ .bool false) :
    PhaseFollows q (.changeOld new) (.changeSet new) (.setPassword new)
  | changeNew (new : Bytes) : PhaseFollows q (.changeSet new) (.changeNew new) (.verifyPassword new)
  | relayConfirm (n : Int) (state : Bool) : PhaseFollows q (.relaySet n state) (.relayConfirm n state) .getRelayStates
  | allConfirm (state : Bool) : PhaseFollows q (.allSet state) (.allConfirm state) .getRelayStates
  | modeSent (m : Mode) {k : Nat} (hk : k ≠ 3) : PhaseFollows q (.modeRead m k) (.modeSent m (k + 1)) (.setMode m)
  | modeRead (m : Mode) (k : Nat) : PhaseFollows q (.modeSent m k) (.modeRead m k) .getMode

/-- The act ends the public operation, or enters one of the phases `P` with that phase's request. -/
def SessionAct.Enters (P : CallPhase → Request → Prop) : SessionAct → Prop
  | .present r u => P u.call r
  | .returned u => u.call = .idle

/-- An operation that needs no more than an open session enters its first phase, or is refused. -/
theorem enters_of_asks {P : CallPhase → Request → Prop} {p : CallPhase} {r : Request} (h : P p r) (s : State) :
    (if s.session.isOpen then s.present r p else s.returnCall .nothing .notOpen).Enters P := by
  split
  exacts [h, rfl]

theorem callOpen_enters (s : State) (cur pw : Bytes) : (s.callOpen pw).Enters (PhaseBegins cur) := by
  unfold State.callOpen
  split
  · rfl
  · split
    · rfl
    · split
      exacts [rfl, .openSync]

theorem callChangePassword_enters (s : State) (new : Bytes) :
    (s.callChangePassword new).Enters (PhaseBegins s.session.currentPassword) := by
  unfold State.callChangePassword
  split
  · split
    exacts [rfl, .changeOld new]
  · rfl

theorem identityField_enters (P : CallPhase → Request → Prop) (s : State) (f : Identity → Nat) :
    (s.identityField f).Enters P := by
  unfold State.identityField
  split <;> rfl

theorem callStart_enters (s : State) (c : Call) :
    (s.callStart c).Enters (PhaseBegins s.session.currentPassword) := by
  cases c
  case openSession port pw => exact callOpen_enters s _ pw
  case changePassword new => exact callChangePassword_enters s new
  case getBoardModel | getBoardVersion | getFirmwareVersion | getChannelCount => exact identityField_enters _ s _
  case closeSession =>
    simp only [State.callStart]
    split_ifs <;> rfl
  case getRelayState n =>
    simp only [State.callStart]
    split_ifs
    exacts [.query (.relay n), rfl, rfl]
  case setRelay n state =>
    simp only [State.callStart]
    split_ifs with ho hn
    exacts [.relaySet (by simpa [relayInRange] using hn) state, rfl, rfl]
  case getPassword => exact enters_of_asks (.query .password) s
  case getRelayStates => exact enters_of_asks (.query .relays) s
  case getOperatingMode => exact enters_of_asks (.query .mode) s
  case getVoltage => exact enters_of_asks (.query .voltage) s
  case getTemperature => exact enters_of_asks (.query .temperature) s
  case setAllRelays state => exact enters_of_asks (.allSet state) s
  case setOperatingMode m => exact enters_of_asks (.modeRead m) s

theorem callResume_enters {s : State} (hc : s.call ≠ .idle) :
    s.callResume.Enters (PhaseFollows s.seq.result s.call) := by
  unfold State.callResume
  cases hp : s.call
  case idle => exact absurd hp hc
  case openSync => simp only; split_ifs; exacts [rfl, .openBoard]
  case openBoard => exact .openFirmware
  case openFirmware id => simp only; split_ifs <;> rfl
  case changeOld new =>
    simp only
    split_ifs with h
    exacts [.changeSet new h.1 h.2, rfl]
  case changeSet new => exact .changeNew new
  case changeNew new => simp only; split_ifs <;> rfl
  case relaySet n state => exact .relayConfirm n state
  case allSet state => exact .allConfirm state
  case relayConfirm | allConfirm => simp only; split_ifs <;> rfl
  case modeRead m k =>
    simp only
    split_ifs with hok hm hk
    exacts [rfl, rfl, .modeSent m hk, rfl]
  case modeSent m k => exact .modeRead m k
  case query k => rfl

/-- A step that is no turn ends the public operation of the requester in turn, lets it wait on with the same request, or
has it enter its first or its next phase with that phase's request. -/
theorem step_enters {s t : State} (h : step s = .next t) (hn : ∀ k, s.nextInput.move ≠ .turn k) :
    t.call = .idle ∨ (t.call = s.call ∧ t.seq.req = s.seq.req) ∨
    (s.call = .idle ∧ PhaseBegins s.session.currentPassword t.call t.seq.req) ∨
    PhaseFollows s.seq.result s.call t.call t.seq.req := by
  obtain ended | waits | ⟨hc, c, r, u, e, hcall, hreq⟩ | ⟨hc, ⟨r, u, e, hcall, hreq⟩ | e⟩ := step_call_cases h hn
  · exact .inl ended
  · exact .inr (.inl waits)
  · have begun := callStart_enters s.sample c
    rw [e] at begun
    exact .inr (.inr (.inl ⟨hc, by rw [hcall, hreq]; exact begun⟩))
  · have followed := callResume_enters (s := s.sample) hc
    rw [e] at followed
    exact .inr (.inr (.inr (by rw [hcall, hreq]; exact followed)))
  · have ended := callResume_enters (s := s.sample) hc
    rw [e] at ended
    exact .inl ended

/-! ## How `open` ends -/

theorem callStart_open_malformed {s : State} {pw : Bytes} (hs : s.session.isOpen = false)
    (hp : encodePassword pw = none) (port : Bytes) :
    s.callStart (.openSession port pw) = s.returnCall .nothing .invalidPassword := by
  simp [State.callStart, State.callOpen, hs, hp]

theorem callStart_open_unopened {s : State} {pw : Bytes} (hs : s.session.isOpen = false)
    (hp : encodePassword pw ≠ none) (hfail : s.now.openFails = true) (port : Bytes) :
    s.callStart (.openSession port pw) = s.closeSession.returnCall .hardFailure .none := by
  obtain ⟨p, hp⟩ := Option.ne_none_iff_exists'.1 hp
  simp [State.callStart, State.callOpen, hs, hp, hfail]

/-- A returned act that closed the session leaves all closed. -/
theorem leavesClosed_closeSession (s : State) (r : CallReturn) :
    LeavesClosed s { s.sample.closeSession with call := .idle, ret := r } :=
  ⟨rfl, rfl, rfl, rfl, rfl, rfl⟩

/-- The public operation in progress ends with what the Session returns. -/
theorem step_of_returned {s u : State} (hf : s.fault = none) (hb : s.seq.busy = false) (hc : s.call ≠ .idle)
    (hm : s.nextInput.move ≠ .reset) (hn : ∀ k, s.nextInput.move ≠ .turn k) (h : s.sample.callResume = .returned u) :
    step s = .next u := by
  rw [step_resume hf hb hc hm hn, h]
  rfl

/-- Settles O56: each failure is an act of the Session that returns, the first three of them from the closed session. -/
theorem failedOpenLeavesClosed : Obligations.FailedOpenLeavesClosed := by
  intro s hf hb
  refine ⟨fun hc hm hn hq => ?_, fun id hc hm hn hq => ?_, fun port pw hc hm hs hquiet hp hfail => ?_,
    fun port pw hc hm hs hquiet hp => ?_⟩
  · have failed : s.sample.callResume = s.sample.failOpen .authenticationFailed := by
      simp only [State.callResume, sample_call, sample_seq, hc]
      exact if_pos hq
    exact ⟨_, step_of_returned hf hb (by simp [hc]) hm hn failed, leavesClosed_closeSession s _, rfl⟩
  · have failed : s.sample.callResume = s.sample.failOpen (if id.ok then s.seq.result.err else id.err) := by
      simp only [State.callResume, sample_call, sample_seq, hc]
      cases hid : id.ok
      · rfl
      · simp [hq.resolve_left (by simp [hid])]
    exact ⟨_, step_of_returned hf hb (by simp [hc]) hm hn failed, leavesClosed_closeSession s _, rfl⟩
  · have failed : s.sample.callStart (.openSession port pw) = s.sample.closeSession.returnCall .hardFailure .none :=
      callStart_open_unopened (s := s.sample) hs hp hfail port
    have answered : step s = (s.sample.closeSession.returnCall .hardFailure .none).plan.answer := by
      rw [step_call hf hb hc hm, callMove_open (s := s.sample) (.inr hquiet), failed]
    exact ⟨_, answered, leavesClosed_closeSession s _, rfl⟩
  · have refused : s.sample.callStart (.openSession port pw) = s.sample.returnCall .nothing .invalidPassword :=
      callStart_open_malformed (s := s.sample) hs hp port
    rw [step_call hf hb hc hm, callMove_open (s := s.sample) (.inr hquiet), refused]
    exact congrArg Host.Outcome.next (returned_of_idle (s := s.sample) hc _)

/-- Settles O57: with both queries answered the Session records the identity and returns. -/
theorem openFetchesIdentity : Obligations.OpenFetchesIdentity := by
  rintro s model version w _ hf hb hm hn hc rfl hq
  have done : s.sample.callResume = s.sample.openDone model version w := by
    simp only [State.callResume, sample_call, sample_seq, hc, hq]
    rfl
  exact step_of_returned hf hb (by simp [hc]) hm hn done

/-! ## The adoption of a new password -/

/-- `changePassword` ends with the new password adopted (R263). -/
def State.adopted (new : Bytes) (s : State) : State :=
  { s with call := .idle, ret := { value := .success true, err := .none }, curPw := new
           session := { s.session with currentPassword := new } }

/-- On an open session a public operation begins with the session as it is, or closes it. -/
theorem callStart_session {s : State} (ho : s.session.isOpen = true) (c : Call) :
    (s.callStart c).state.session = s.session ∨ (s.callStart c).state.session = Session.reset := by
  cases c
  case openSession port pw =>
    rw [callStart_open_of_open ho]
    exact .inl rfl
  case closeSession =>
    simp only [State.callStart, ho, if_true]
    exact .inr rfl
  case changePassword new =>
    simp only [State.callStart, State.callChangePassword]
    repeat' split
    all_goals exact .inl rfl
  case getBoardModel | getBoardVersion | getFirmwareVersion | getChannelCount =>
    simp only [State.callStart, State.identityField]
    split <;> exact .inl rfl
  all_goals
    simp only [State.callStart]
    repeat' split
    all_goals exact .inl rfl

/-- After a result the session keeps its current password, is closed, or adopts the password the device has confirmed. -/
theorem callResume_session (s : State) :
    (s.callResume.state.session.currentPassword = s.session.currentPassword) ∨
    (s.callResume.state.session = Session.reset) ∨
    (∃ new, s.call = .changeNew new ∧ s.seq.result.ok = true ∧ s.seq.result.value = .bool true ∧
      s.callResume = .returned (s.adopted new)) := by
  unfold State.callResume
  cases hp : s.call
  case openSync =>
    simp only
    split_ifs
    exacts [.inr (.inl rfl), .inl rfl]
  case openFirmware id =>
    simp only
    split_ifs
    exacts [.inl rfl, .inr (.inl rfl), .inr (.inl rfl)]
  case changeNew new =>
    simp only
    split_ifs with h
    exacts [.inr (.inr ⟨new, rfl, h.1, h.2, rfl⟩), .inl rfl]
  all_goals
    simp only
    repeat' split
    all_goals exact .inl rfl

theorem OperationOnly.session {s t : State} (h : OperationOnly s t) : t.session = s.session := by rw [h]

@[simp] theorem switchTo_session (k : Nat) (s : State) : (s.switchTo k).session = s.session := by
  unfold State.switchTo
  split <;> rfl

/-- The block's step after an act of the Session changes neither the session's record nor the other requesters. -/
theorem SessionAct.plan_shared {s t : State} {a : SessionAct} (hf : s.fault = none) (ho : a.Orderly s)
    (h : a.plan.answer = .next t) : t.session = a.state.session ∧ t.parked = a.state.parked := by
  obtain ⟨r, u, rfl, hop⟩ | rfl := SessionAct.plan_cases h
  · have hfu : (u.accept r).fault = none := by rw [ho.sessionOnly]; exact hf
    have frame := operation_frame hfu hop
    exact ⟨frame.session, frame.parked⟩
  · exact ⟨rfl, rfl⟩

theorem idleStep_session {s t : State} (hf : s.fault = none) (ho : s.session.isOpen = true)
    (h : s.idleStep.answer = .next t) : t.session = s.session ∨ t.session = Session.reset := by
  obtain rfl | ⟨r, _, _, ha⟩ | ⟨_, _, _, rfl⟩ | ⟨_, _, _, rfl⟩ | ⟨c, _, ha, _⟩ := idleStep_cases h
  · exact .inl rfl
  · exact .inl (operation_frame (s := s.accept r) hf ha).session
  · exact .inl rfl
  · exact .inl rfl
  · rw [(SessionAct.plan_shared hf (callStart_orderly c s) ha).1]
    exact callStart_session ho c

/-- A step keeps the current password of an open session, closes the session, or adopts a confirmed password. -/
theorem step_currentPassword {s t : State} (h : step s = .next t) (ho : s.session.isOpen = true) :
    t.session.currentPassword = s.session.currentPassword ∨ t.session = Session.reset ∨
    (s.seq.busy = false ∧ ∃ new, s.call = .changeNew new ∧ s.seq.result.ok = true ∧ s.seq.result.value = .bool true ∧
      t = s.sample.adopted new) := by
  have kept (e : t.session = s.session) : t.session.currentPassword = s.session.currentPassword := by rw [e]
  obtain ⟨_, rfl⟩ | ⟨_, k, _, rfl⟩ | ⟨hf, _, _, ht⟩ := step_cases h
  · exact .inr (.inl rfl)
  · exact .inl (kept (switchTo_session k s.sample))
  have hf : s.sample.fault = none := hf
  obtain ⟨_, rfl⟩ | ⟨_, ha⟩ | ⟨_, _, ha⟩ | ⟨hb, _, ha⟩ := threadStep_cases ht
  · exact .inl (kept (cancelOperation_frame s.sample.noteCancel).session)
  · exact .inl (kept (operation_frame (s := s.sample.noteCancel) hf ha).session)
  · exact (idleStep_session hf ho ha).imp kept .inl
  · have record := (SessionAct.plan_shared hf (callResume_orderly s.sample) ha).1
    obtain same | closed | ⟨new, hc, hok, hyes, e⟩ := callResume_session s.sample
    · exact .inl (by rw [record]; exact same)
    · exact .inr (.inl (by rw [record]; exact closed))
    · rw [e] at ha
      cases ha
      exact .inr (.inr ⟨hb, new, hc, hok, hyes, rfl⟩)

/-- Settles O58: of the Session's acts only the adoption changes the current password, and each phase of
`changePassword` is entered with the request whose result it waits for. -/
theorem onlyVerifiedPasswordAdopted : Obligations.OnlyVerifiedPasswordAdopted := by
  refine ⟨fun s t h ho hopen hne => ?_, fun s t new h hn => ?_⟩
  · obtain same | closed | ⟨hb, new, hc, hok, hyes, rfl⟩ := step_currentPassword h ho
    · exact absurd same hne
    · rw [closed] at hopen
      cases hopen
    · exact ⟨new, hc, hb, hok, hyes, rfl, rfl, rfl⟩
  · have entered := step_enters h hn
    generalize s.call = p, t.call = p', t.seq.req = r at entered ⊢
    obtain rfl | ⟨rfl, rfl⟩ | ⟨rfl, begun⟩ | followed := entered
    · exact ⟨nofun, nofun, nofun⟩
    · exact ⟨fun e => .inl ⟨e, rfl⟩, fun e => .inl ⟨e, rfl⟩, fun e => .inl ⟨e, rfl⟩⟩
    · cases begun
      case changeOld => exact ⟨fun _ => .inr ⟨rfl, rfl⟩, nofun, nofun⟩
      all_goals exact ⟨nofun, nofun, nofun⟩
    · cases followed
      case changeSet hok hno => exact ⟨nofun, by rintro ⟨⟩; exact .inr ⟨rfl, hok, hno, rfl⟩, nofun⟩
      case changeNew => exact ⟨nofun, nofun, by rintro ⟨⟩; exact .inr ⟨rfl, rfl⟩⟩
      all_goals exact ⟨nofun, nofun, nofun⟩

/-! ## A request the Session presents -/

/-- An idle requester's request that names a command is written in the step that accepts it, when the transport is open,
the gate free and the write successful (R41, R231, R296). -/
theorem startRequest_writes {s : State} {r : Request} {i : Instr} (hres : resolve r = .ok (some i))
    (hf : s.fault = none) (hr : s.seq.rsmState = .idle) (hopen : s.transportOpen = true) (hg : s.gateHeld = false)
    (hw : s.now.writeFault = none) :
    ∃ t, (s.startRequest r).answer = .next t ∧ t.call = s.call ∧ t.seq.req = r ∧ t.seq.cmd = i ∧
      t.tx = s.tx ++ encode s.cfg i := by
  have current : (s.accept r).currentCommand = .ok (some i) := (if_pos ⟨rfl, hr⟩).trans hres
  have attempted : (s.startRequest r).answer =
      .next (((s.accept r).started i).attemptCommand i (specMeaning s.cfg i)) := by
    rw [State.startRequest, operation_of_command current, Plan.answer_run, exec_of_noFault (s := s.accept r) hf,
      operateStep_of_start (s := s.accept r) hr (.inr rfl), firstTry_of_open (s := s.accept r) hopen]
    rfl
  refine ⟨_, attempted, ?_⟩
  by_cases hm : (specMeaning s.cfg i).reply = .none
  · rw [attemptCommand_done (s := (s.accept r).started i) hf hg hw hm]
    exact ⟨rfl, rfl, rfl, rfl⟩
  · rw [attemptCommand_started (s := (s.accept r).started i) hf hg hw hm]
    exact ⟨rfl, rfl, rfl, rfl⟩

/-- A public operation that goes on to its next phase writes the command of that phase's request. -/
theorem step_writes_of_present {s : State} {r : Request} {i : Instr} {p : CallPhase} (hf : s.fault = none)
    (hb : s.seq.busy = false) (hc : s.call ≠ .idle) (hm : s.nextInput.move ≠ .reset)
    (hn : ∀ k, s.nextInput.move ≠ .turn k) (h : s.sample.callResume = s.sample.present r p)
    (hres : resolve r = .ok (some i)) (hr : s.seq.rsmState = .idle) (hopen : s.transportOpen = true)
    (hg : s.gateHeld = false) (hw : s.nextInput.writeFault = none) :
    ∃ t, step s = .next t ∧ t.call = p ∧ t.seq.req = r ∧ t.seq.cmd = i ∧ t.tx = s.tx ++ encode s.cfg i := by
  rw [step_resume hf hb hc hm hn, h]
  exact startRequest_writes (s := { s.sample with call := p }) hres hf hr hopen hg hw

/-! ## `setRelay` -/

theorem callStart_setRelay_outside {s : State} {n : Int} (ho : s.session.isOpen = true) (hn : n < 1 ∨ 8 < n)
    (state : Bool) : s.callStart (.setRelay n state) = s.returnCall .nothing .invalidRelayNumber := by
  have outside : relayInRange n = false := by
    simp only [relayInRange, Bool.and_eq_false_iff, decide_eq_false_iff_not]
    omega
  simp [State.callStart, ho, outside]

theorem callStart_setRelay_inside {s : State} {n : Int} (ho : s.session.isOpen = true) (hlo : 1 ≤ n) (hhi : n ≤ 8)
    (state : Bool) : s.callStart (.setRelay n state) = s.present (.setRelay n state) (.relaySet n state) := by
  simp [State.callStart, relayInRange, ho, hlo, hhi]

/-- The relay table has a command for each relay number in range (R100). -/
theorem relayCommand_of_inside {n : Int} (hlo : 1 ≤ n) (hhi : n ≤ 8) (state : Bool) :
    ∃ i, relayCommand n state = some i := by
  obtain rfl | rfl | rfl | rfl | rfl | rfl | rfl | rfl :
    n = 1 ∨ n = 2 ∨ n = 3 ∨ n = 4 ∨ n = 5 ∨ n = 6 ∨ n = 7 ∨ n = 8 := by omega
  all_goals exact ⟨_, rfl⟩

theorem resolve_setRelay {n : Int} {state : Bool} {i : Instr} (h : relayCommand n state = some i) :
    resolve (.setRelay n state) = .ok (some i) := by
  simp only [resolve, h]

/-- Settles O59: the call presents the set command or is refused, the two phases are entered with their requests, and each
goes on as its result says. -/
theorem setRelayConfirms : Obligations.SetRelayConfirms := by
  refine ⟨fun s n state hf hb hc he ho hm => ?_, fun s t n state h hn => ?_, fun s n state hf hb hm hn => ?_⟩
  · have called : step s = (s.sample.callStart (.setRelay n state)).plan.answer := by
      rw [step_call hf hb hc hm, callMove_of_alone (s := s.sample) (c := .setRelay n state) he nofun nofun]
    refine ⟨fun hout => ?_, fun hlo hhi hopen hg hw hr => ?_⟩
    · rw [called, callStart_setRelay_outside (s := s.sample) ho hout]
      exact congrArg Host.Outcome.next (returned_of_idle (s := s.sample) hc _)
    · obtain ⟨i, hi⟩ := relayCommand_of_inside hlo hhi state
      rw [called, callStart_setRelay_inside (s := s.sample) ho hlo hhi]
      obtain ⟨t, answered, hcall, hreq, hcmd, htx⟩ := startRequest_writes
        (s := { s.sample with call := .relaySet n state }) (resolve_setRelay hi) hf hr hopen hg hw
      exact ⟨t, i, answered, hcall, hreq, hi, hcmd, htx⟩
  · have entered := step_enters h hn
    generalize s.call = p, t.call = p', t.seq.req = r at entered ⊢
    obtain rfl | ⟨rfl, rfl⟩ | ⟨rfl, begun⟩ | followed := entered
    · exact ⟨nofun, nofun⟩
    · exact ⟨fun e => .inl ⟨e, rfl⟩, fun e => .inl ⟨e, rfl⟩⟩
    · cases begun
      case relaySet hrange _ => exact ⟨by rintro ⟨⟩; exact .inr ⟨rfl, hrange.1, hrange.2, rfl⟩, nofun⟩
      all_goals exact ⟨nofun, nofun⟩
    · cases followed
      case relayConfirm => exact ⟨nofun, by rintro ⟨⟩; exact .inr ⟨rfl, rfl⟩⟩
      all_goals exact ⟨nofun, nofun⟩
  · refine ⟨fun hc hopen hg hw hr => ?_, fun hc => ?_⟩
    · have goesOn : s.sample.callResume = s.sample.present .getRelayStates (.relayConfirm n state) := by
        simp only [State.callResume, sample_call, hc]
      obtain ⟨t, answered, hcall, _, hcmd, htx⟩ :=
        step_writes_of_present hf hb (by simp [hc]) hm hn goesOn rfl hr hopen hg hw
      exact ⟨t, answered, hcall, hcmd, htx⟩
    · cases hok : s.seq.result.ok
      · have reported : s.sample.callResume = s.sample.returnCall (.success false) s.seq.result.err := by
          simp only [State.callResume, sample_call, sample_seq, hc, hok, Bool.false_eq_true, if_false]
        exact ⟨_, step_of_returned hf hb (by simp [hc]) hm hn reported, rfl, fun m e => by simp [e] at hok,
          fun _ => rfl⟩
      · have reported : s.sample.callResume =
            s.sample.returnCall (.success (decodeRelayBit s.seq.result.value.mask n.toNat == state)) .none := by
          simp only [State.callResume, sample_call, sample_seq, hc, hok, if_true]
        exact ⟨_, step_of_returned hf hb (by simp [hc]) hm hn reported, rfl, fun m e => by rw [e]; rfl, nofun⟩

/-! ## `setOperatingMode` -/

/-- A phase of `setOperatingMode` has counted at most three set-mode commands (R270). -/
def CallPhase.SendsBounded (p : CallPhase) : Prop := ∀ m k, p = .modeRead m k ∨ p = .modeSent m k → k ≤ 3

theorem sendsBounded_idle : CallPhase.idle.SendsBounded := by
  rintro m k (e | e) <;> cases e

theorem PhaseBegins.sendsBounded {cur : Bytes} {p : CallPhase} {r : Request} (h : PhaseBegins cur p r) :
    p.SendsBounded := by
  cases h <;> rintro m k (e | e) <;> cases e
  exact Nat.zero_le 3

/-- Only the send counts, and it is not made at 3. -/
theorem PhaseFollows.sendsBounded {q : OpResult} {p p' : CallPhase} {r : Request} (h : PhaseFollows q p p' r)
    (hp : p.SendsBounded) : p'.SendsBounded := by
  cases h
  case modeSent m k hk =>
    have bound : k ≤ 3 := hp m k (.inl rfl)
    rintro _ _ (e | e) <;> cases e
    omega
  case modeRead m k =>
    have bound : k ≤ 3 := hp m k (.inr rfl)
    rintro _ _ (e | e) <;> cases e
    exact bound
  all_goals rintro _ _ (e | e) <;> cases e

theorem SessionOnly.parked {s t : State} (h : SessionOnly s t) : t.parked = s.parked := by rw [h]

/-- An act of the Session leaves the other requesters' public operations where they stand. -/
theorem SessionAct.Orderly.parkedCalls {s : State} {a : SessionAct} (h : a.Orderly s) :
    a.state.parked.map Thread.call = s.parked.map Thread.call := by
  obtain ⟨_, u, rfl, hu⟩ | ⟨u, rfl, hu⟩ | ⟨u, rfl, hu⟩ := h <;> simp only [SessionAct.state, hu.parked]
  simp

theorem idleStep_parkedCalls {s t : State} (hf : s.fault = none) (h : s.idleStep.answer = .next t) :
    t.parked.map Thread.call = s.parked.map Thread.call := by
  obtain rfl | ⟨r, _, _, ha⟩ | ⟨_, _, _, rfl⟩ | ⟨_, _, _, rfl⟩ | ⟨c, _, ha, _⟩ := idleStep_cases h
  · rfl
  · rw [(operation_frame (s := s.accept r) hf ha).parked, accept_parked]
  · rfl
  · rfl
  · have ordered := callStart_orderly c s
    rw [(SessionAct.plan_shared hf ordered ha).2, ordered.parkedCalls]

theorem threadStep_parkedCalls {s t : State} (hf : s.fault = none) (h : s.threadStep.answer = .next t) :
    t.parked.map Thread.call = s.parked.map Thread.call := by
  obtain ⟨_, rfl⟩ | ⟨_, ha⟩ | ⟨_, _, ha⟩ | ⟨_, _, ha⟩ := threadStep_cases h
  · rw [(cancelOperation_frame s.noteCancel).parked, noteCancel_parked]
  · rw [(operation_frame (s := s.noteCancel) hf ha).parked, noteCancel_parked]
  · exact idleStep_parkedCalls hf ha
  · have ordered := callResume_orderly s
    rw [(SessionAct.plan_shared hf ordered ha).2, ordered.parkedCalls]

/-- A step keeps the bound of every requester's count. -/
theorem step_keeps_sendsBounded {s t : State} (h : step s = .next t) (hs : ∀ q ∈ s.threads, q.call.SendsBounded) :
    ∀ q ∈ t.threads, q.call.SendsBounded := by
  have inTurn : s.call.SendsBounded := hs s.thread (List.mem_cons_self ..)
  obtain ⟨_, rfl⟩ | ⟨_, k, _, rfl⟩ | ⟨hf, _, hn, ht⟩ := step_cases h
  · intro q hq
    rw [threads_powerOn _ q hq]
    exact sendsBounded_idle
  · intro q hq
    exact hs q ((switchTo_perm k s.sample).mem_iff.1 hq)
  · refine List.forall_mem_cons.2 ⟨?_, fun q hq => ?_⟩
    · show t.call.SendsBounded
      obtain e | ⟨e, _⟩ | ⟨_, begun⟩ | followed := step_enters h hn
      · rw [e]
        exact sendsBounded_idle
      · rw [e]
        exact inTurn
      · exact begun.sendsBounded
      · exact followed.sendsBounded inTurn
    · have stands : q.call ∈ s.parked.map Thread.call :=
        threadStep_parkedCalls (s := s.sample) hf ht ▸ List.mem_map_of_mem hq
      obtain ⟨q', hq', e⟩ := List.mem_map.1 stands
      rw [← e]
      exact hs q' (List.mem_cons_of_mem _ hq')

/-- Every mode a host may ask for has its set-mode command (R99). -/
theorem resolve_setMode (m : Mode) : ∃ i, resolve (.setMode m) = .ok (some i) := by
  cases m <;> exact ⟨_, rfl⟩

/-- Settles O60: the count starts at 0, each send counts one and is made below 3 only. -/
theorem modeLoopBounded : Obligations.ModeLoopBounded := by
  refine ⟨fun s t => step_keeps_sendsBounded, fun s t m k h hn => ?_,
    fun s m k hf hb hm hn hc hok hne hk hr hopen hg hw => ?_⟩
  · have entered := step_enters h hn
    generalize s.call = p, t.call = p', t.seq.req = r at entered ⊢
    obtain rfl | ⟨rfl, rfl⟩ | ⟨rfl, begun⟩ | followed := entered
    · exact ⟨fun _ e => by simp at e, fun _ _ => .inl rfl, fun _ => .inl rfl⟩
    · exact ⟨fun hidle e => by simp [hidle] at e, fun e _ => .inr (.inl ⟨e, rfl⟩), fun e => .inr (.inl ⟨e, rfl⟩)⟩
    · refine ⟨fun _ e => ?_, nofun, nofun⟩
      cases begun <;> obtain e | e := e <;> cases e
      exact ⟨rfl, rfl⟩
    · cases followed
      case modeSent hk => exact ⟨nofun, by rintro ⟨⟩ hle; exact .inr (.inr ⟨by omega, rfl, rfl⟩), nofun⟩
      case modeRead => exact ⟨nofun, nofun, by rintro ⟨⟩; exact .inr (.inr ⟨rfl, rfl⟩)⟩
      all_goals exact ⟨nofun, nofun, nofun⟩
  · obtain ⟨i, hi⟩ := resolve_setMode m
    have sends : s.sample.callResume = s.sample.present (.setMode m) (.modeSent m (k + 1)) := by
      have below : k ≠ Config.modeMaxAttempts := Nat.ne_of_lt hk
      simp only [State.callResume, sample_call, sample_seq, hc, hok, if_true, hne, below, if_false]
    obtain ⟨t, answered, hcall, hreq, _, htx⟩ :=
      step_writes_of_present hf hb (by simp [hc]) hm hn sends hi hr hopen hg hw
    exact ⟨t, i, answered, hcall, hreq, hi, htx⟩

end Sys2Proof.Machine

end

section
/-! PROOFS of the family 45_gate_and_exchange.md: how the exchange of a command with a reply begins, and who waits while
the gate is held. -/

namespace Sys2Proof.Machine

/-- Settles O22: the first try, which latches the command, and the retry, whose command register holds it, each make an
attempt at the command, and a free gate and a successful write make the attempt start the exchange. -/
theorem queryExchangeBegins : Obligations.QueryExchangeBegins := by
  intro i s hreply hf hr ho hg hw
  have replies : specReply s.cfg i ≠ .none := hasReply_eq_true_iff.mp hreply
  obtain ⟨ho, hopen⟩ | ⟨ho, rfl⟩ := ho
  · rw [exec_of_queryStart hf hr ho hopen hg hw replies, State.started, ← ho]
    rfl
  · rw [exec_of_noFault hf, operateStep_of_retry hr ho, attemptCommand_started hf hg hw replies]
    rfl

/-! ## Waiting for the gate -/

theorem attemptCommand_of_gateHeld {s : State} (hg : s.gateHeld = true) (i : Instr) (m : CommandMeaning) :
    s.attemptCommand i m = s := by
  rw [State.attemptCommand, if_pos hg]

theorem roundTrip_of_gateHeld {s : State} (hg : s.gateHeld = true) : s.roundTrip = s := by
  rw [State.roundTrip, if_pos hg]

/-- Settles O28: at each of the three places an exchange begins, a held gate leaves the state as it is; the first try has
written the command register by then. -/
theorem heldGateBlocks : Obligations.HeldGateBlocks := by
  intro i s hf hr hg
  rw [exec_of_noFault hf]
  refine ⟨fun ho hopen => ?_, fun ho => ?_, fun ho hs => ?_⟩
  · have held : ({ s with seq := { s.seq with cmd := i } } : State).gateHeld = true := hg
    rw [operateStep_of_firstTry hr ho hopen, attemptCommand_of_gateHeld held]
  · rw [operateStep_of_retry hr ho, attemptCommand_of_gateHeld hg]
  · rw [operateStep_of_attempt hr ho hs, roundTrip_of_gateHeld hg]

end Sys2Proof.Machine

end

section
/-! PROOFS of the family 60_exceptions.md: the error names, an operation that ends with an error, a cancel taken at a
boundary, a recorded fault, and the turn of the requesters. -/

namespace Sys2Proof.Machine

/-! ## Errors and `raise` -/

/-- Settles O38, name by name. -/
theorem errorCodesOfTheTable : Obligations.ErrorCodesOfTheTable :=
  ⟨rfl, rfl, rfl, rfl, rfl, rfl, rfl, rfl, rfl⟩

/-- Settles O39: `raise` rests the machines and finishes with an error, so `ok` is false. -/
theorem raiseRestsTheMachines : Obligations.RaiseRestsTheMachines := by
  intro s v e he
  rw [State.raise, State.finish, decide_eq_false he]

/-! ## A closed transport -/

theorem firstTry_of_closed {s : State} (h : s.transportOpen = false) (i : Instr) (m : CommandMeaning) :
    s.firstTry i m = ({ s with seq := { s.seq with opState := .firstTry } } : State).raise m.failure .notOpen := by
  simp [State.firstTry, h]

/-- Settles O26: the first try checks the transport before it does anything else, and raises `NotOpen`; the read that
`raise` rests is at rest already. -/
theorem closedTransportReported : Obligations.ClosedTransportReported := by
  intro i s hf hr ho hclosed
  rw [exec_of_noFault hf, operateStep_of_start hr (.inr ho), firstTry_of_closed hclosed,
    raiseRestsTheMachines _ _ _ (by decide), ← hr]
  rfl

/-! ## Cancel -/

theorem cancelAsserted_iff {s : State} :
    s.cancelAsserted = true ↔ s.cfg.hasCancel = true ∧ s.now.move = .cancel := by
  simp [State.cancelAsserted]

theorem atBoundary_iff {q : Sequencer} : q.atBoundary = true ↔ q.rsmState = .idle ∨ q.rsmState = .accumulating := by
  unfold Sequencer.atBoundary
  cases q.rsmState <;> decide

/-- A busy requester at a boundary takes the cancel of its own step (R319). -/
theorem busyStep_of_cancel {s : State} (hcan : s.cancelAsserted = true) (hb : s.seq.atBoundary = true) :
    s.busyStep = .next s.noteCancel.cancelOperation := by
  have pending : s.noteCancel.seq.cancelPending = true := by simp [hcan]
  have boundary : s.noteCancel.seq.atBoundary = true := hb
  simp only [State.busyStep, pending, boundary, Bool.and_self, if_true]

theorem step_of_cancel {s : State} (hcan : s.cfg.hasCancel = true) (hf : s.fault = none) (hb : s.seq.busy = true)
    (hr : s.seq.rsmState = .idle ∨ s.seq.rsmState = .accumulating) (hm : s.nextInput.move = .cancel) :
    step s = .next s.sample.noteCancel.cancelOperation := by
  have asserted : s.sample.cancelAsserted = true := cancelAsserted_iff.mpr ⟨hcan, hm⟩
  have busy : s.sample.seq.busy = true := hb
  rw [step_of_thread hf (by simp [hm]) (by simp [hm]), State.threadStep, if_pos busy,
    busyStep_of_cancel asserted (atBoundary_iff.mpr hr), Plan.answer_next]

/-- Outside a read there is no exchange to abandon. -/
theorem cancelOperation_of_idle {s : State} (hr : s.seq.rsmState = .idle) :
    s.cancelOperation = s.raise (failureOf s.seq.req) .cancelled := by
  simp [State.cancelOperation, State.abandonExchange, Sequencer.inExchange, hr]

/-- In a read the exchange is abandoned first, with its bytes and its gate. -/
theorem cancelOperation_of_accumulating {s : State} (hr : s.seq.rsmState = .accumulating) :
    s.cancelOperation = ({ s with
      gateHeld := false
      seq := { s.seq with resp := { bytes := [], ok := false }, acc := [], rsmState := .idle } } : State).raise
        (failureOf s.seq.req) .cancelled := by
  simp [State.cancelOperation, State.abandonExchange, Sequencer.inExchange, hr, State.releaseGate, Sequencer.respond]

/-- Settles O40: the step takes the cancel, which abandons the exchange of a read in progress, and raises `Cancelled`. -/
theorem cancelEndsTheOperation : Obligations.CancelEndsTheOperation := by
  intro s hcan hf hb hr hm
  refine ⟨_, step_of_cancel hcan hf hb hr hm, ?_⟩
  obtain idle | reading := hr
  · rw [cancelOperation_of_idle (s := s.sample.noteCancel) idle]
    exact ⟨rfl, rfl, rfl, rfl, by simp [idle], fun _ => rfl, rfl, rfl, rfl, rfl, rfl, rfl, hf⟩
  · rw [cancelOperation_of_accumulating (s := s.sample.noteCancel) reading]
    exact ⟨rfl, rfl, rfl, rfl, fun _ => ⟨rfl, rfl⟩, by simp [reading], rfl, rfl, rfl, rfl, rfl, rfl, hf⟩

/-! ## A recorded fault -/

theorem exec_of_fault {s : State} {f : Fault} (hf : s.fault = some f) (i : Instr) : exec i s = .fault f := by
  rw [exec_eq_operate, operate, hf]

/-- Settles O41: reset is looked at before the fault, and the fault before any other move and in every command's
meaning. -/
theorem faultStopsUntilReset : Obligations.FaultStopsUntilReset := by
  intro s f hf
  exact ⟨step_of_fault hf, fun hm => ⟨_, step_of_reset hm, rfl⟩, exec_of_fault hf⟩

/-! ## The turn of the requesters -/

theorem switchTo_of_absent {s : State} {k : Nat} (h : s.parked.length ≤ k) : s.switchTo k = s := by
  rw [State.switchTo, List.getElem?_eq_none h]

theorem switchTo_thread_of_parked {s : State} {k : Nat} {q : Thread} (h : s.parked[k]? = some q) :
    (s.switchTo k).thread = q := by
  rw [State.switchTo, h]
  rfl

/-- A turn changes nothing but who is in turn and who is parked. -/
theorem switchTo_frame (k : Nat) (s : State) :
    s.switchTo k = { s with
      seq := (s.switchTo k).seq, call := (s.switchTo k).call, ret := (s.switchTo k).ret
      parked := (s.switchTo k).parked } := by
  unfold State.switchTo
  split <;> rfl

/-- Settles O53: the step is the turn after sampling, which reorders the requesters and leaves what they share. -/
theorem turnOnlyReorders : Obligations.TurnOnlyReorders := by
  intro s k hf hm
  have named : ∀ q, s.parked[k]? = some q → (s.sample.switchTo k).thread = q := fun q hq =>
    switchTo_thread_of_parked (s := s.sample) hq
  have absent : s.parked.length ≤ k → (s.sample.switchTo k).thread = s.thread := fun hk => by
    rw [switchTo_of_absent (s := s.sample) hk]
    rfl
  refine ⟨_, step_of_turn hf hm, named, absent, switchTo_perm k s.sample, ?_⟩
  rw [switchTo_frame]
  exact ⟨rfl, rfl, rfl, rfl, rfl, rfl, hf⟩

end Sys2Proof.Machine

end

section
/-! PROOFS of the family 70_reset_and_hazards.md: the reset input, and where model time passes. A step of the requester in
turn readies the block and takes one step of its operation, closes the session, or lets no time pass. -/

namespace Sys2Proof.Machine

/-! ## Reset -/

theorem length_threads_powerOn (s : State) : s.powerOn.threads.length = s.threads.length := by
  simp [State.threads]

/-- Settles O43: reset is looked at before anything else, and leaves every requester as at power-on. -/
theorem resetMove : Obligations.ResetMove := by
  intro s hm
  have registers : ∀ q ∈ s.sample.powerOn.threads, q.seq = Sequencer.reset := fun q hq => by
    rw [threads_powerOn _ q hq]
    rfl
  exact ⟨_, step_of_reset hm, registers, length_threads_powerOn s.sample, rfl, rfl, rfl, rfl, rfl, rfl, rfl⟩

/-! ## Sleeps of the operation in progress -/

/-- The requester in turn has not slept, or once for 10 ms with both streams left as they were (R46). -/
def SleepsOnce (s t : State) : Prop :=
  t.seq.sleptMs = s.seq.sleptMs ∨ (t.seq.sleptMs = s.seq.sleptMs + 10 ∧ StreamsKept s t)

theorem operateStep_sleepsOnce (i : Instr) (m : CommandMeaning) (s : State) : SleepsOnce s (s.operateStep i m) := by
  obtain ⟨-, -, slept⟩ := operateStep_streams i m s
  exact slept

theorem operation_sleepsOnce {s t : State} (hf : s.fault = none) (h : s.operation.answer = .next t) :
    SleepsOnce s t := by
  obtain ⟨e, _, rfl⟩ | ⟨_, rfl⟩ | ⟨i, _, rfl⟩ := operation_cases hf h
  · exact .inl rfl
  · obtain ⟨-, -, slept⟩ := syncStep_streams s
    exact slept
  · exact operateStep_sleepsOnce i _ s

/-! ## How an act of the Session ends -/

/-- The act changes nothing but what the Session owns, or closes the session and returns. -/
def SessionAct.OwnsOrCloses (s : State) (a : SessionAct) : Prop :=
  SessionOnly s a.state ∨ ∃ v e, a = s.closeSession.returnCall v e

theorem callOpen_ownsOrCloses (s : State) (pw : Bytes) : (s.callOpen pw).OwnsOrCloses s := by
  unfold State.callOpen
  split
  · exact .inl rfl
  · split
    · exact .inl rfl
    · split
      exacts [.inr ⟨_, _, rfl⟩, .inl rfl]

theorem callStart_ownsOrCloses (c : Call) (s : State) : (s.callStart c).OwnsOrCloses s := by
  cases c
  case openSession port pw => exact callOpen_ownsOrCloses s pw
  case closeSession =>
    simp only [State.callStart]
    split_ifs
    exacts [.inr ⟨_, _, rfl⟩, .inl rfl]
  all_goals
    simp only [State.callStart, State.callChangePassword, State.identityField]
    repeat' split
    all_goals exact .inl rfl

theorem callResume_ownsOrCloses (s : State) : s.callResume.OwnsOrCloses s := by
  unfold State.callResume
  cases s.call
  case openSync =>
    simp only
    split_ifs
    exacts [.inr ⟨_, _, rfl⟩, .inl rfl]
  case openFirmware id =>
    simp only
    split_ifs
    exacts [.inl rfl, .inr ⟨_, _, rfl⟩, .inr ⟨_, _, rfl⟩]
  all_goals
    simp only
    repeat' split
    all_goals exact .inl rfl

/-! ## The time of a step -/

/-- The session and the transport are closed, every requester's registers are at reset, and the streams are left (R262). -/
def ClosesSession (s t : State) : Prop :=
  t.session = Session.reset ∧ t.transportOpen = false ∧ (∀ q ∈ t.threads, q.seq = Sequencer.reset) ∧ StreamsKept s t

/-- The requester in turn sleeps once at most and no other does, or the session is closed. -/
def SleepsOrCloses (s t : State) : Prop := (SleepsOnce s t ∧ t.parked = s.parked) ∨ ClosesSession s t

theorem SessionOnly.seq {s t : State} (h : SessionOnly s t) : t.seq = s.seq := by rw [h]

theorem closesSession_returnCall (s : State) (r : CallReturn) :
    ClosesSession s { s.closeSession with call := .idle, ret := r } :=
  ⟨rfl, rfl, by simp [State.threads, State.thread], rfl, rfl⟩

namespace SleepsOrCloses

variable {s t u : State}

theorem of_unslept (hs : t.seq.sleptMs = s.seq.sleptMs) (hp : t.parked = s.parked) : SleepsOrCloses s t :=
  .inl ⟨.inl hs, hp⟩

theorem operation (hf : s.fault = none) (ready : Readied s u) (h : u.operation.answer = .next t) :
    SleepsOrCloses s t := by
  have hfu : u.fault = none := by rw [ready]; exact hf
  have slept := operation_sleepsOnce hfu h
  have others := (operation_frame hfu h).parked
  rw [ready] at slept others
  exact .inl ⟨slept, others⟩

theorem cancel (s : State) : SleepsOrCloses s s.cancelOperation := by
  refine of_unslept ?_ (cancelOperation_frame s).parked
  unfold State.cancelOperation State.abandonExchange
  split <;> rfl

theorem act {a : SessionAct} (hf : s.fault = none) (ho : a.OwnsOrCloses s) (h : a.plan.answer = .next t) :
    SleepsOrCloses s t := by
  obtain ⟨r, u, rfl, hop⟩ | rfl := SessionAct.plan_cases h <;> obtain owned | ⟨v, e, closed⟩ := ho
  · exact operation hf (SessionOnly.readied_accept owned r) hop
  · cases closed
  · exact of_unslept (congrArg Sequencer.sleptMs owned.seq) owned.parked
  · cases closed
    exact .inr (closesSession_returnCall s _)

theorem idleStep (hf : s.fault = none) (h : s.idleStep.answer = .next t) : SleepsOrCloses s t := by
  obtain rfl | ⟨r, _, _, ha⟩ | ⟨_, _, _, rfl⟩ | ⟨_, _, _, rfl⟩ | ⟨c, _, ha, _⟩ := idleStep_cases h
  · exact of_unslept rfl rfl
  · exact operation (u := s.accept r) hf rfl ha
  · exact of_unslept rfl rfl
  · exact of_unslept rfl rfl
  · exact act hf (callStart_ownsOrCloses c s) ha

theorem threadStep (hf : s.fault = none) (h : s.threadStep.answer = .next t) : SleepsOrCloses s t := by
  obtain ⟨_, rfl⟩ | ⟨_, ha⟩ | ⟨_, _, ha⟩ | ⟨_, _, ha⟩ := threadStep_cases h
  · exact cancel s.noteCancel
  · exact operation (u := s.noteCancel) hf rfl ha
  · exact idleStep hf ha
  · exact act hf (callResume_ownsOrCloses s) ha

theorem step (h : step s = .next t) (hr : s.nextInput.move ≠ .reset) (hn : ∀ k, s.nextInput.move ≠ .turn k) :
    SleepsOrCloses s.sample t := by
  obtain ⟨hm, _⟩ | ⟨_, k, hm, _⟩ | ⟨hf, _, _, ha⟩ := step_cases h
  · exact absurd hm hr
  · exact absurd hm (hn k)
  · exact threadStep hf ha

end SleepsOrCloses

/-- Settles O52: only the operation in progress sleeps, for one poll of a read or between two attempts, and neither touches
the streams. -/
theorem timePassesOnlyInSleeps : Obligations.TimePassesOnlyInSleeps := by
  refine ⟨fun i s t h => ?_, fun s t h hr hn => ?_⟩
  · obtain ⟨_, rfl⟩ := exec_next h
    exact operateStep_sleepsOnce i _ s
  · obtain ⟨unslept | ⟨slept, streams⟩, others⟩ | closed := SleepsOrCloses.step h hr hn
    · exact .inl ⟨unslept, others⟩
    · exact .inr (.inl ⟨slept, others, streams⟩)
    · exact .inr (.inr closed)

end Sys2Proof.Machine

end
